-- ==== Sys2Proof/Word.lean ====
section
/-!
DEFINITION. The word types of the Iryalet and the fields of its six instruction formats (spec/03, R54 to R62).
Nothing here says what an instruction does.
-/
namespace Sys2Proof

/-- One byte of memory or scratchpad. -/
abbrev Byte := BitVec 8
/-- A 32-bit register word (R62). -/
abbrev Word := BitVec 32
/-- A 64-bit register value (R62, R110). -/
abbrev Long := BitVec 64
/-- A program counter: a 53-bit virtual byte address (R48). -/
abbrev Pc := BitVec 53

/-- A decoded 10-bit register field (R62). Every one of the 1,024 field values has one form here. -/
inductive Operand
  /-- V0 to V639, field values 0 to 639. -/
  | v (n : Fin 640)
  /-- S0 to S63, field values 640 to 703. -/
  | s (n : Fin 64)
  /-- CT0 to CT7, field values 704 to 711. -/
  | ct (n : Fin 8)
  /-- The field values 712 to 767, which name nothing. -/
  | resv (n : Fin 56)
  /-- The constants −127 to +127, field values 768 to 1022; `n` is the field value less 768. -/
  | const (n : Fin 255)
  /-- NONE, field value 1023. -/
  | none
deriving DecidableEq, Repr

/-- The predicate fields of the common head (R54). `ps` 15 selects PT. -/
structure Guard where
  pn : Bool
  ps : Fin 16
deriving DecidableEq, Repr

/-- Format F3 (R55), with FN. `pd` none is the field value 15. -/
structure F3 where
  fn : BitVec 8
  ty : BitVec 3
  rm : BitVec 2
  md : BitVec 4
  d : Operand
  a : Operand
  b : Operand
  c : Operand
  pd : Option (Fin 15)
deriving DecidableEq, Repr

/-- Format FI (R56), with FN. -/
structure FI where
  fn : BitVec 8
  ty : BitVec 3
  rm : BitVec 2
  md : BitVec 4
  d : Operand
  a : Operand
  pd : Option (Fin 15)
  imm : BitVec 32
deriving DecidableEq, Repr

/-- Format FM (R57), with FN. -/
structure FM where
  fn : BitVec 8
  sz : BitVec 3
  rd : BitVec 2
  sem : BitVec 2
  scope : BitVec 2
  d : Operand
  a : Operand
  b : Operand
  c : Operand
  ofs : BitVec 26
deriving DecidableEq, Repr

/-- Format FB (R58); FN is zero in every row that uses it. `kind` true is KIND = 1, register. -/
structure FB where
  kind : Bool
  lnk : Operand
  tgtr : Operand
  slot : BitVec 3
  lofs : BitVec 26
deriving DecidableEq, Repr

/-- Format FK (R59); the row itself says FN. -/
structure FK where
  mask : Fin 16
  mask2 : Fin 16
  d : Operand
  a : Operand
  b : Operand
  imm : BitVec 32
deriving DecidableEq, Repr

/-- Format FT (R60), with FN. -/
structure FT where
  fn : BitVec 8
  shape : BitVec 3
  acc : Fin 4
  cv : Fin 16
  da : Operand
  db : Operand
  epi : BitVec 6
  fmta : BitVec 4
  c : Operand
deriving DecidableEq, Repr

/-- Rounding modes, RM of R65. -/
inductive Rm
  | rne | rz | ru | rd
deriving DecidableEq, Repr

/-- The AtomicOps a host may send to BAR2 (R438). -/
inductive HostOp
  | fetchAdd | swap | cas
deriving DecidableEq, Repr

/-- The requests a scale-up peer sends over a PSL port (R441), the permit operations and the commits that its lanes ask of the owners in
this package (R13, R318) among them. -/
inductive PeerOp
  | read | write | atomic (op : BitVec 4) | pacq | prel | ptry | commit
deriving DecidableEq, Repr

/-- What wakes a package (R447): an inbound PCIe or PSL request, a write that a WAITV waits on, a change seen by the
portal's poll of a host word, the end of a NAP or WAITV time-out, a write to LATTOL. -/
inductive WakeCause
  | inbound | waitvWrite | hostPoll | timeOut | lattol
deriving DecidableEq, Repr

/-- What a start-up run meets (R448, R438): the steps that fail, the dies and clusters that fail, the PSL ports that
train, and whether the root port routes and completes AtomicOps of 32, 64 and 128 bits. -/
structure BootOutcome where
  stepsFailed : BitVec 7
  diesFailed : BitVec 4
  clustersFailed : BitVec 40
  portsUp : BitVec 18
  atomicSizes : BitVec 3
deriving DecidableEq, Repr

end Sys2Proof
end

