-- ==== Sys2Proof/Syntax.lean ====
section
/-!
DEFINITION. The instructions and events of the Iryalet: one constructor for each row of spec/opcode_table.json.
A constructor with a format is a 96-bit instruction (spec/03) with the fields of its word; the ten instructions after them
use no field but their predicate. The predicate (R54) belongs to the issue, not to the instruction, and stands beside it
in what decoding gives. The last 70 are the indivisible steps of other agents (spec/95), which have no encoding; which
agent and which piece of work a step is for stands in the state's turn.
(The instructions with fields come first because Lean's runtime allows fields only in the first 245 constructors.)
-/
namespace Sys2Proof

inductive Instr
  /-- BRA (R94). -/
  | bra (f : FB)
  /-- BRX (R94). -/
  | brx (f : FB)
  /-- CALL (R94). -/
  | call (f : FB)
  /-- RET (R94). -/
  | ret (f : FB)
  /-- JOIN (R95). -/
  | join (f : FK)
  /-- LEAVE (R95). -/
  | leave (f : FK)
  /-- WAITM (R95). -/
  | waitm (f : FK)
  /-- VOTE_BALLOT (R96). -/
  | voteBallot (f : FK)
  /-- VOTE_ALL (R96). -/
  | voteAll (f : FK)
  /-- VOTE_ANY (R96). -/
  | voteAny (f : FK)
  /-- VOTE_EQ (R96). -/
  | voteEq (f : FK)
  /-- VOTE_MASK (R96). -/
  | voteMask (f : FK)
  /-- ELECT (R97). -/
  | elect (f : FK)
  /-- ELECT_IN (R97). -/
  | electIn (f : FK)
  /-- MSET_MOV (R98). -/
  | msetMov (f : FK)
  /-- MSET_OR (R98). -/
  | msetOr (f : FK)
  /-- MSET_AND (R98). -/
  | msetAnd (f : FK)
  /-- MSET_ANDN (R98). -/
  | msetAndn (f : FK)
  /-- MGET (R99). -/
  | mget (f : FK)
  /-- MGET_ARR (R99). -/
  | mgetArr (f : FK)
  /-- MGET_LIVE (R99). -/
  | mgetLive (f : FK)
  /-- SPAWN (R100). -/
  | spawn (f : FB)
  /-- NAP (R103). -/
  | nap (f : FI)
  /-- BARI (R104). -/
  | bari (f : FI)
  /-- ARRIVE (R104). -/
  | arrive (f : FI)
  /-- ARRIVE_ONE (R104). -/
  | arriveOne (f : FI)
  /-- AWAIT (R104). -/
  | await (f : FI)
  /-- AWAIT_TEST (R104). -/
  | awaitTest (f : FI)
  /-- CBAR (R105). -/
  | cbar (f : FI)
  /-- KBAR (R105). -/
  | kbar (f : FI)
  /-- MOV (R116). -/
  | mov (f : F3)
  /-- MOVI (R116). -/
  | movi (f : FI)
  /-- MOVI_SX (R116). -/
  | moviSx (f : FI)
  /-- MOVI_HI (R116). -/
  | moviHi (f : FI)
  /-- SEL (R116). -/
  | sel (f : F3)
  /-- LEA (R116). -/
  | lea (f : FI)
  /-- IADD (R117). -/
  | iadd (f : F3)
  /-- ISUB (R117). -/
  | isub (f : F3)
  /-- IMUL (R117). -/
  | imul (f : F3)
  /-- IMULH (R117). -/
  | imulh (f : F3)
  /-- IMAD (R117). -/
  | imad (f : F3)
  /-- IMIN (R117). -/
  | imin (f : F3)
  /-- IMAX (R117). -/
  | imax (f : F3)
  /-- IABS (R117). -/
  | iabs (f : F3)
  /-- IADDC_ADD (R118). -/
  | iaddcAdd (f : F3)
  /-- IADDC_ADDC (R118). -/
  | iaddcAddc (f : F3)
  /-- IADDC_SUB (R118). -/
  | iaddcSub (f : F3)
  /-- IADDC_SUBB (R118). -/
  | iaddcSubb (f : F3)
  /-- ISETP (R119). -/
  | isetp (f : F3)
  /-- PSET (R120). -/
  | pset (f : F3)
  /-- PSET_NZ (R120). -/
  | psetNz (f : F3)
  /-- PMOV (R120). -/
  | pmov (f : F3)
  /-- AND (R121). -/
  | and (f : F3)
  /-- OR (R121). -/
  | or (f : F3)
  /-- XOR (R121). -/
  | xor (f : F3)
  /-- ANDN (R121). -/
  | andn (f : F3)
  /-- BTAB (R121). -/
  | btab (f : F3)
  /-- SHL (R122). -/
  | shl (f : F3)
  /-- SHR (R122). -/
  | shr (f : F3)
  /-- SAR (R122). -/
  | sar (f : F3)
  /-- ROT (R122). -/
  | rot (f : F3)
  /-- BFE (R123). -/
  | bfe (f : F3)
  /-- BFI (R123). -/
  | bfi (f : F3)
  /-- POPC (R124). -/
  | popc (f : F3)
  /-- CLZ (R124). -/
  | clz (f : F3)
  /-- BREV (R124). -/
  | brev (f : F3)
  /-- BYSEL (R125). -/
  | bysel (f : F3)
  /-- SHFL_IDX (R126). -/
  | shflIdx (f : F3)
  /-- SHFL_UP (R126). -/
  | shflUp (f : F3)
  /-- SHFL_DOWN (R126). -/
  | shflDown (f : F3)
  /-- SHFL_XOR (R126). -/
  | shflXor (f : F3)
  /-- BCAST (R127). -/
  | bcast (f : F3)
  /-- BCAST_FIRST (R127). -/
  | bcastFirst (f : F3)
  /-- RDSR (R128). -/
  | rdsr (f : FI)
  /-- WRSR (R129). -/
  | wrsr (f : FI)
  /-- WGROW (R130). -/
  | wgrow (f : FI)
  /-- WSHRINK (R130). -/
  | wshrink (f : FI)
  /-- FADD (R138). -/
  | fadd (f : F3)
  /-- FSUB (R138). -/
  | fsub (f : F3)
  /-- FMUL (R138). -/
  | fmul (f : F3)
  /-- FFMA (R138). -/
  | ffma (f : F3)
  /-- FMIN (R139). -/
  | fmin (f : F3)
  /-- FMAX (R139). -/
  | fmax (f : F3)
  /-- FSETP (R140). -/
  | fsetp (f : F3)
  /-- FCLASS (R141). -/
  | fclass (f : F3)
  /-- FRND (R142). -/
  | frnd (f : F3)
  /-- FSCALE (R142). -/
  | fscale (f : F3)
  /-- HADD2 (R143). -/
  | hadd2 (f : F3)
  /-- HMUL2 (R143). -/
  | hmul2 (f : F3)
  /-- HFMA2 (R143). -/
  | hfma2 (f : F3)
  /-- HMNX2_MIN (R143). -/
  | hmnx2Min (f : F3)
  /-- HMNX2_MAX (R143). -/
  | hmnx2Max (f : F3)
  /-- DOT2 (R144). -/
  | dot2 (f : F3)
  /-- REDL_ADD (R145). -/
  | redlAdd (f : F3)
  /-- REDL_MAX (R145). -/
  | redlMax (f : F3)
  /-- REDL_MIN (R145). -/
  | redlMin (f : F3)
  /-- CVT (R146). -/
  | cvt (f : F3)
  /-- CVTI_F2I (R147). -/
  | cvtiF2i (f : F3)
  /-- CVTI_I2F (R147). -/
  | cvtiI2f (f : F3)
  /-- QMX (R148). -/
  | qmx (f : F3)
  /-- DQMX (R149). -/
  | dqmx (f : F3)
  /-- PACK_H16 (R150). -/
  | packH16 (f : F3)
  /-- PACK_B16 (R150). -/
  | packB16 (f : F3)
  /-- PACK_E4M3 (R150). -/
  | packE4m3 (f : F3)
  /-- PACK_E5M2 (R150). -/
  | packE5m2 (f : F3)
  /-- UNPACK (R151). -/
  | unpack (f : F3)
  /-- FRCP (R152). -/
  | frcp (f : F3)
  /-- FRSQ (R152). -/
  | frsq (f : F3)
  /-- FSQRT (R152). -/
  | fsqrt (f : F3)
  /-- FEXP2 (R152). -/
  | fexp2 (f : F3)
  /-- FLOG2 (R152). -/
  | flog2 (f : F3)
  /-- FTANH (R152). -/
  | ftanh (f : F3)
  /-- FSIGM (R152). -/
  | fsigm (f : F3)
  /-- FSIN (R152). -/
  | fsin (f : F3)
  /-- FCOS (R152). -/
  | fcos (f : F3)
  /-- FERF (R152). -/
  | ferf (f : F3)
  /-- FEXPM (R153). -/
  | fexpm (f : F3)
  /-- LDS (R171). -/
  | lds (f : FM)
  /-- STS (R171). -/
  | sts (f : FM)
  /-- LDSR (R171). -/
  | ldsr (f : FM)
  /-- STSR (R171). -/
  | stsr (f : FM)
  /-- ATOMS (R172). -/
  | atoms (f : FM)
  /-- LDA (R173). -/
  | lda (f : F3)
  /-- STA (R173). -/
  | sta (f : F3)
  /-- ZACC (R174). -/
  | zacc (f : F3)
  /-- ZACC_ROWS (R174). -/
  | zaccRows (f : F3)
  /-- SFILL (R175). -/
  | sfill (f : FM)
  /-- MSIGN (R198). -/
  | msign (f : FK)
  /-- WLOAD (R199). -/
  | wload (f : F3)
  /-- TMMA (R200). -/
  | tmma (f : FT)
  /-- ADPT (R201). -/
  | adpt (f : FT)
  /-- TSTAT (R202). -/
  | tstat (f : F3)
  /-- TSHAPE (R203). -/
  | tshape (f : FI)
  /-- RHDR (R235). -/
  | rhdr (f : F3)
  /-- RHDR_FLAGS (R235). -/
  | rhdrFlags (f : F3)
  /-- TKFWD (R236). -/
  | tkfwd (f : F3)
  /-- TKFWD_ID (R236). -/
  | tkfwdId (f : F3)
  /-- TKPARK (R237). -/
  | tkpark (f : F3)
  /-- TKDONE (R237). -/
  | tkdone (f : F3)
  /-- TKDONE_END (R237). -/
  | tkdoneEnd (f : F3)
  /-- TKDONE_ID (R237). -/
  | tkdoneId (f : F3)
  /-- TKDONE_END_ID (R237). -/
  | tkdoneEndId (f : F3)
  /-- TKNEW (R238). -/
  | tknew (f : F3)
  /-- GATEK (R239). -/
  | gatek (f : F3)
  /-- COLQ (R240). -/
  | colq (f : FI)
  /-- OPBIND (R241). -/
  | opbind (f : F3)
  /-- OPUNBIND (R241). -/
  | opunbind (f : F3)
  /-- OPUNBIND_CLOSE (R241). -/
  | opunbindClose (f : F3)
  /-- BOARD (R257). -/
  | board (f : FI)
  /-- BOARD_SEL (R257). -/
  | boardSel (f : FI)
  /-- BOARD_LEAVE (R257). -/
  | boardLeave (f : FI)
  /-- XPRED (R258). -/
  | xpred (f : F3)
  /-- CRSTAT (R259). -/
  | crstat (f : FI)
  /-- RIDGE_PAUSE (R260). -/
  | ridgePause (f : FI)
  /-- RIDGE_RESUME (R260). -/
  | ridgeResume (f : FI)
  /-- RIDGE_SYNC (R260). -/
  | ridgeSync (f : FI)
  /-- LDG (R287). -/
  | ldg (f : FM)
  /-- STG (R287). -/
  | stg (f : FM)
  /-- STGM (R287). -/
  | stgm (f : FM)
  /-- PREF_SLICE (R288). -/
  | prefSlice (f : FM)
  /-- PREF_MEM (R288). -/
  | prefMem (f : FM)
  /-- FENCE_AR (R317). -/
  | fenceAr (f : FM)
  /-- FENCE_ACQ (R317). -/
  | fenceAcq (f : FM)
  /-- FENCE_REL (R317). -/
  | fenceRel (f : FM)
  /-- FENCE_SC (R317). -/
  | fenceSc (f : FM)
  /-- TLBQ (R289). -/
  | tlbq (f : FM)
  /-- TLBQ_FILL (R289). -/
  | tlbqFill (f : FM)
  /-- PGHINT_WILL (R290). -/
  | pghintWill (f : FM)
  /-- PGHINT_DONT (R290). -/
  | pghintDont (f : FM)
  /-- PGHINT_PIN (R290). -/
  | pghintPin (f : FM)
  /-- PGHINT_UNPIN (R290). -/
  | pghintUnpin (f : FM)
  /-- CCTL_ZERO (R291). -/
  | cctlZero (f : FM)
  /-- CCTL_EVICT (R291). -/
  | cctlEvict (f : FM)
  /-- CCTL_HINT (R291). -/
  | cctlHint (f : FM)
  /-- WAITV (R292). -/
  | waitv (f : FM)
  /-- ATOM (R323). -/
  | atom (f : FM)
  /-- ATOMR (R323). -/
  | atomr (f : FM)
  /-- PACQ (R329). -/
  | pacq (f : FM)
  /-- PREL (R329). -/
  | prel (f : FM)
  /-- PTRY (R329). -/
  | ptry (f : FM)
  /-- TBEGIN (R331). -/
  | tbegin (f : FK)
  /-- TEND (R335). -/
  | tend (f : FK)
  /-- TABORT (R339). -/
  | tabort (f : FI)
  /-- TSTATE (R340). -/
  | tstate (f : F3)
  /-- TSTATE_CLR (R340). -/
  | tstateClr (f : F3)
  /-- ACP (R349). -/
  | acp (f : FM)
  /-- ACPS (R349). -/
  | acps (f : FM)
  /-- XCOPY (R351). -/
  | xcopy (f : F3)
  /-- XMCAST (R352). -/
  | xmcast (f : FK)
  /-- XGATH (R351). -/
  | xgath (f : F3)
  /-- XFILL (R351). -/
  | xfill (f : F3)
  /-- XSTAT_CNT (R353). -/
  | xstatCnt (f : F3)
  /-- XSTAT_ERR (R353). -/
  | xstatErr (f : F3)
  /-- XSTAT_ENG (R353). -/
  | xstatEng (f : F3)
  /-- KVMAP (R381). -/
  | kvmap (f : F3)
  /-- KVMAP_INFO (R381). -/
  | kvmapInfo (f : F3)
  /-- KVAPP (R382). -/
  | kvapp (f : F3)
  /-- KVFORK (R383). -/
  | kvfork (f : F3)
  /-- KVFREE (R383). -/
  | kvfree (f : F3)
  /-- KVFREE_ALL (R383). -/
  | kvfreeAll (f : F3)
  /-- KSTORE (R384). -/
  | kstore (f : FM)
  /-- CGATH (R385). -/
  | cgath (f : FM)
  /-- CGATH_TRAP (R388). -/
  | cgathTrap (f : FM)
  /-- CRED (R387). -/
  | cred (f : F3)
  /-- CRED_NORM (R387). -/
  | credNorm (f : F3)
  /-- CPROJ (R386). -/
  | cproj (f : F3)
  /-- PENAL (R397). -/
  | penal (f : F3)
  /-- CNTUPD (R398). -/
  | cntupd (f : F3)
  /-- RAND (R399). -/
  | rand (f : F3)
  /-- RAND_U01 (R399). -/
  | randU01 (f : F3)
  /-- SCANB (R405). -/
  | scanb (f : F3)
  /-- SCANB_FLUSH (R405). -/
  | scanbFlush (f : F3)
  /-- SCANB_RESET (R405). -/
  | scanbReset (f : F3)
  /-- SCANR (R406). -/
  | scanr (f : F3)
  /-- SEQADM (R393). -/
  | seqadm (f : F3)
  /-- SEQADM_REL (R393). -/
  | seqadmRel (f : F3)
  /-- SEQADM_INFO (R393). -/
  | seqadmInfo (f : F3)
  /-- SEQSTEAL (R395). -/
  | seqsteal (f : F3)
  /-- SYSC (R415). -/
  | sysc (f : FI)
  /-- HCALL (R415). -/
  | hcall (f : FI)
  /-- BRK (R415). -/
  | brk (f : FI)
  /-- RDPR (R417). -/
  | rdpr (f : FI)
  /-- WRPR (R417). -/
  | wrpr (f : FI)
  /-- WRPR_X (R417). -/
  | wrprX (f : FI)
  /-- TLBINV_VA (R420). -/
  | tlbinvVa (f : FM)
  /-- TLBINV_ASID (R420). -/
  | tlbinvAsid (f : FM)
  /-- TLBINV_VMID (R420). -/
  | tlbinvVmid (f : FM)
  /-- TLBINV_ALL (R420). -/
  | tlbinvAll (f : FM)
  /-- CTXSV (R425). -/
  | ctxsv (f : F3)
  /-- CTXLD (R426). -/
  | ctxld (f : F3)
  /-- REPLAY_DATA (R422). -/
  | replayData (f : FK)
  /-- HALTG_STOP (R423). -/
  | haltgStop (f : FK)
  /-- HALTG_GO (R423). -/
  | haltgGo (f : FK)
  /-- HALTG_KILL (R423). -/
  | haltgKill (f : FK)
  /-- HALTG_QUERY (R423). -/
  | haltgQuery (f : FK)
  /-- SVCFG_BUDGET (R427). -/
  | svcfgBudget (f : FI)
  /-- PGDONE (R421). -/
  | pgdone (f : F3)
  /-- PGDONE_DENY (R421). -/
  | pgdoneDeny (f : F3)
  /-- FREEZE_REGION (R429). -/
  | freezeRegion (f : FI)
  /-- FREEZE_THAW (R429). -/
  | freezeThaw (f : FI)
  /-- FREEZE_SLOT (R429). -/
  | freezeSlot (f : FI)
  /-- FREEZE_SLOTTHAW (R429). -/
  | freezeSlotthaw (f : FI)
  /-- NOP (R68). -/
  | nop
  /-- EXIT (R101). -/
  | exit
  /-- YIELD (R102). -/
  | yield
  /-- YIELD_AGE (R102). -/
  | yieldAge
  /-- WLOAD_REL (R199). -/
  | wloadRel
  /-- SRET (R413). -/
  | sret
  /-- HRET (R413). -/
  | hret
  /-- REPLAY_RETRY (R422). -/
  | replayRetry
  /-- REPLAY_OP (R422). -/
  | replayOp
  /-- SVCFG_NOIDEM (R427). -/
  | svcfgNoidem
  /-- GROUP_RETIRE (R77). -/
  | groupRetire
  /-- NAP_EXPIRY (R103). -/
  | napExpiry
  /-- BARRIER_RELEASE (R92). -/
  | barrierRelease
  /-- ISSUE_SELECT (R85). -/
  | issueSelect
  /-- LINE_REFETCH (R51). -/
  | lineRefetch
  /-- ASYNC_EVENT_TAKE (R412). -/
  | asyncEventTake
  /-- SFILL_COMPLETE (R175). -/
  | sfillComplete
  /-- SPMAP_WRITE (R158). -/
  | spmapWrite
  /-- ACCOWN_WRITE (R164). -/
  | accownWrite
  /-- BANK_READY (R178). -/
  | bankReady
  /-- LANDING_BUFFER_MOVE (R178). -/
  | landingBufferMove
  /-- ARRAY_START (R188). -/
  | arrayStart
  /-- ARRAY_OP_COMPLETE (R196). -/
  | arrayOpComplete
  /-- RECORD_ENTER_COL (R215). -/
  | recordEnterCol
  /-- COL_FIRE_TIMEOUT (R216). -/
  | colFireTimeout
  /-- COL_FIRE_FILL (R216). -/
  | colFireFill
  /-- DISPATCH_PLACE (R218). -/
  | dispatchPlace
  /-- ADAPTER_PREFETCH_WARM (R255). -/
  | adapterPrefetchWarm
  /-- TOKEN_PACKET_ARRIVE (R227). -/
  | tokenPacketArrive
  /-- TOKEN_PACKET_ACK (R227). -/
  | tokenPacketAck
  /-- BALANCER_CLONE (R228). -/
  | balancerClone
  /-- BALANCER_CLOSE (R228). -/
  | balancerClose
  /-- MERGE_RELEASE (R229). -/
  | mergeRelease
  /-- STALL_WATCH_HANG (R231). -/
  | stallWatchHang
  /-- BOARD_TAKE_EFFECT (R248). -/
  | boardTakeEffect
  /-- PASS_OPEN (R245). -/
  | passOpen
  /-- BLOCK_READ_ISSUE (R246). -/
  | blockReadIssue
  /-- BLOCK_DELIVER (R246). -/
  | blockDeliver
  /-- RIDE_EJECT (R246). -/
  | rideEject
  /-- WAITV_RECHECK (R292). -/
  | waitvRecheck
  /-- TLB_WALK_COMPLETE (R273). -/
  | tlbWalkComplete
  /-- FAULT_RECORD_WRITE (R278). -/
  | faultRecordWrite
  /-- MEM_REQUEST_SLOT_GRANT (R267). -/
  | memRequestSlotGrant
  /-- MEM_ACCESS_PERFORM (R295). -/
  | memAccessPerform
  /-- ACCESS_REPLY (R295). -/
  | accessReply
  /-- REPL_MULTICAST_STORE (R315). -/
  | replMulticastStore
  /-- SETTLE_SWEEP (R308). -/
  | settleSweep
  /-- TLBINV_SWITCH (R283). -/
  | tlbinvSwitch
  /-- SVC_REQUEST_PERFORM (R319). -/
  | svcRequestPerform
  /-- PACQ_RETRY (R330). -/
  | pacqRetry
  /-- PORTAL_COMPLETION (R326). -/
  | portalCompletion
  /-- FALLBACK_PERMIT_GRANT (R331). -/
  | fallbackPermitGrant
  /-- TX_VALIDATE_TIMER (R334). -/
  | txValidateTimer
  /-- TX_VALIDATE_REPLY (R334). -/
  | txValidateReply
  /-- ACP_TRANSFER_COMPLETE (R349). -/
  | acpTransferComplete
  /-- ENGINE_PIECE (R344). -/
  | enginePiece
  /-- ENGINE_REQUEST_COMPLETE (R354). -/
  | engineRequestComplete
  /-- XMCAST_TARGET_ARRIVE (R352). -/
  | xmcastTargetArrive
  /-- KV_REQUEST_PERFORM (R363). -/
  | kvRequestPerform
  /-- KV_COW_COPY_READ (R367). -/
  | kvCowCopyRead
  /-- KSTORE_PUBLISH (R374). -/
  | kstorePublish
  /-- CRED_MERGE (R378). -/
  | credMerge
  /-- SCAN_REQUEST_PERFORM (R403). -/
  | scanRequestPerform
  /-- BUDGET_EXPIRE (R428). -/
  | budgetExpire
  /-- PKGCFG_WRITE (R435). -/
  | pkgcfgWrite
  /-- LATTOL_WRITE (R446). -/
  | lattolWrite
  /-- MSIXDB_WRITE (R439). -/
  | msixdbWrite
  /-- MGMT_REG_WRITE (R435). -/
  | mgmtRegWrite
  /-- HOST_BAR2_READ (R437). -/
  | hostBar2Read
  /-- HOST_BAR2_WRITE (R437). -/
  | hostBar2Write
  /-- HOST_ATOMICOP (R438). -/
  | hostAtomicop
  /-- PEER_REQUEST (R441). -/
  | peerRequest
  /-- PSL_PORT_DOWN (R442). -/
  | pslPortDown
  /-- POWER_STATE_CHANGE (R446). -/
  | powerStateChange
  /-- WAKE_EVENT (R447). -/
  | wakeEvent
  /-- STARTUP (R448). -/
  | startup
  /-- FIRMWARE_RELOAD (R449). -/
  | firmwareReload
  /-- FROZEN_RIDE_EJECT (R249). -/
  | frozenRideEject
  /-- ARRAY_STREAMING_END (R179). -/
  | arrayStreamingEnd
  /-- GATHER_PORT_REPLY (R385). -/
  | gatherPortReply
deriving DecidableEq, Repr

end Sys2Proof
end

