-- ==== Sys2Proof/Machine/Legality.lean ====
section
/-!
DEFINITION. Check 6 of R69 for every instruction: defined FN, must-be-zero and unused fields (R61), legal TY, RM, MOD,
SZ, SEM, SCOPE, SLOT, SHAPE and format codes, legal immediates. The rows are those of the encoding tables R93, R114,
R137, R170, R197, R233, R256, R285, R316, R321, R348, R379, R389 and R414.
-/
namespace Sys2Proof

/-- Bit `n` of a set of small numbers. -/
def inSet (set n : Nat) : Bool := set.testBit n

/-- An unused register field holds NONE (R61). -/
def fieldOk (used : Bool) (o : Operand) : Bool := used || decide (o = .none)

/-- How an instruction uses PD. -/
inductive PdUse
  | none | optional | required
deriving DecidableEq, Repr

/-- The PD field under its use (R61, R114, R137). -/
def pdOk (u : PdUse) (pd : Option (Fin 15)) : Bool :=
  match u with
  | .none => pd.isNone
  | .optional => true
  | .required => pd.isSome

/-- Format F3: admitted types, admitted MOD values, whether the instruction rounds under RM and DYN (R65; then `mods`
lists MOD[2:0]), and which of D, A, B, C and PD it uses. -/
def F3.ok (f : F3) (tys mods : Nat) (dyn ud ua ub uc : Bool) (pdUse : PdUse) : Bool :=
  inSet tys f.ty.toNat &&
  (if dyn then inSet mods (f.md.toNat % 8) && (f.rm == 0 || !f.md.getLsbD 3)
   else inSet mods f.md.toNat && f.rm == 0) &&
  fieldOk ud f.d && fieldOk ua f.a && fieldOk ub f.b && fieldOk uc f.c && pdOk pdUse f.pd

/-- Format FI: which of D, A, IMM32 and PD the instruction uses. -/
def FI.ok (f : FI) (ud ua ui : Bool) (pdUse : PdUse) : Bool :=
  f.ty == 0 && f.rm == 0 && f.md == 0 && fieldOk ud f.d && fieldOk ua f.a && (ui || f.imm == 0) && pdOk pdUse f.pd

/-- How an FM instruction uses SCOPE: not at all; with SEM (zero when SEM is plain, R316); .PKG or .DOMAIN only (R420). -/
inductive ScopeUse
  | none | withSem | tlb
deriving DecidableEq, Repr

/-- The SCOPE field under its use. -/
def scopeOk (u : ScopeUse) (sem scope : BitVec 2) : Bool :=
  match u with
  | .none => scope == 0
  | .withSem => sem != 0 || scope == 0
  | .tlb => scope == 2 || scope == 3

/-- Format FM: admitted sizes, whether RD is used, admitted SEM values, the use of SCOPE, and which of D, A, B, C, OFS
the instruction uses. -/
def FM.ok (f : FM) (szs : Nat) (urd : Bool) (sems : Nat) (su : ScopeUse) (ud ua ub uc uo : Bool) : Bool :=
  inSet szs f.sz.toNat && (urd || f.rd == 0) && inSet sems f.sem.toNat && scopeOk su f.sem f.scope &&
  fieldOk ud f.d && fieldOk ua f.a && fieldOk ub f.b && fieldOk uc f.c && (uo || f.ofs == 0)

/-- Format FB (R58): admitted kinds and whether the instruction links. -/
def FB.ok (f : FB) (kind0 kind1 lnk : Bool) : Bool :=
  fieldOk lnk f.lnk &&
  (if f.kind then kind1 && f.slot == 0 && f.lofs == 0 else kind0 && fieldOk false f.tgtr && decide (f.slot.toNat ≤ 4))

/-- Format FK (R59): which of MK, MK2, D, A, B and IMM32 the instruction uses. -/
def FK.ok (f : FK) (umk umk2 ud ua ub ui : Bool) : Bool :=
  (umk || f.mask == 0) && (umk2 || f.mask2 == 0) && fieldOk ud f.d && fieldOk ua f.a && fieldOk ub f.b && (ui || f.imm == 0)

/-- Format FT (R60): SHAPE 5 to 7 and format codes 8 to 15 (R66) are illegal. -/
def FT.ok (f : FT) : Bool := decide (f.shape.toNat ≤ 4) && decide (f.fmta.toNat ≤ 7)

/-- CBAR's immediate (R105): id [3:0], count [12:8] from 1 to 24. -/
def cbarImmOk (imm : BitVec 32) : Bool :=
  let n := imm.toNat
  n % 16 + (n / 256 % 32) * 256 == n && decide (1 ≤ n / 256) && decide (n / 256 ≤ 24)

/-- KBAR's immediate (R105): id [5:0], count [24:16] from 1 to 384. -/
def kbarImmOk (imm : BitVec 32) : Bool :=
  let n := imm.toNat
  n % 64 + (n / 65536 % 512) * 65536 == n && decide (1 ≤ n / 65536) && decide (n / 65536 ≤ 384)

/-- The immediate of WGROW and WSHRINK (R130): a multiple of 32 from 32 to 608. -/
def resizeImmOk (imm : BitVec 32) : Bool :=
  imm.toNat % 32 == 0 && decide (32 ≤ imm.toNat) && decide (imm.toNat ≤ 608)

/-- CVT's codes (R146): both at most 8, and different. -/
def cvtFnOk (fn : BitVec 8) : Bool :=
  decide (fn.toNat % 16 ≤ 8) && decide (fn.toNat / 16 ≤ 8) && fn.toNat % 16 != fn.toNat / 16

/-- UNPACK's element index (R151). -/
def unpackIndexOk (fn : BitVec 8) (md : BitVec 4) : Bool :=
  decide (md.toNat < (match fn.toNat with | 0 => 2 | 1 => 2 | 2 => 4 | 3 => 4 | _ => 8))

/-- TBEGIN's immediate (R321, R331): [31:29] zero, slot [28:26] at most 4 as SLOT of R58. -/
def tbeginImmOk (imm : BitVec 32) : Bool := decide (imm.toNat / 2 ^ 26 ≤ 4)

/-- CGATH's OFS field (R379): [11:0] budget − 1, [19:12] CHAIN 1 to 255, [21:20] radius 0 to 2, [25:22] zero. -/
def cgathOfsOk (ofs : BitVec 26) : Bool :=
  let n := ofs.toNat
  decide (1 ≤ n / 2 ^ 12 % 256) && decide (n / 2 ^ 20 ≤ 2)

/-- The numbers of the privileged registers (R418). -/
def prListed (imm : BitVec 32) : Bool :=
  let n := imm.toNat
  decide (n ≤ 4) || (decide (8 ≤ n) && decide (n ≤ 11)) || (decide (16 ≤ n) && decide (n ≤ 29)) ||
  (decide (32 ≤ n) && decide (n ≤ 47)) || n == 64 || (decide (96 ≤ n) && decide (n ≤ 105)) ||
  (decide (112 ≤ n) && decide (n ≤ 119))

/-- FN is one of a list of values (R61). -/
def fnIn (fn : BitVec 8) (l : List Nat) : Bool := l.contains fn.toNat

/-- An F3 word all of whose fields are unused (R61). -/
def F3.unused : F3 := ⟨0, 0, 0, 0, .none, .none, .none, .none, none⟩

/-- An FI word all of whose fields are unused (R61). -/
def FI.unused : FI := ⟨0, 0, 0, 0, .none, .none, none, 0⟩

/-- An FK word all of whose fields are unused (R61). -/
def FK.unused : FK := ⟨0, 0, .none, .none, .none, 0⟩

/-- Check 6 of R69. An event has no encoding and nothing to check. -/
def Instr.legal : Instr → Bool
  | .bra f => f.ok true false false
  | .brx f => f.ok false true false
  | .call f => f.ok true true true
  | .ret f => f.ok false true false
  | .join f => f.ok true false false false false false
  | .leave f => f.ok true false false false false false
  | .waitm f => f.ok true false false false false false
  | .voteBallot f => f.ok false false true true false false
  | .voteAll f => f.ok false false true true false false
  | .voteAny f => f.ok false false true true false false
  | .voteEq f => f.ok false false true true false false
  | .voteMask f => f.ok true false false true false false
  | .elect f => f.ok false false true false false false
  | .electIn f => f.ok true false true false false false
  | .msetMov f => f.ok true false false true false true && (f.a == .none || f.imm == 0)
  | .msetOr f => f.ok true true false true false true && (f.a == .none || f.imm == 0)
  | .msetAnd f => f.ok true true false true false true && (f.a == .none || f.imm == 0)
  | .msetAndn f => f.ok true true false true false true && (f.a == .none || f.imm == 0)
  | .mget f => f.ok true false true false false false
  | .mgetArr f => f.ok true false true false false false
  | .mgetLive f => f.ok false false true false false false
  | .spawn f => f.ok true true true
  | .nap f => f.fn == 0 && f.ok false true true .none
  | .bari f => f.fn == 0 && f.ok false true true .none
  | .arrive f => f.fn == 0 && f.ok true true true .none
  | .arriveOne f => f.fn == 1 && f.ok true true true .none
  | .await f => f.fn == 0 && f.ok true true true .none
  | .awaitTest f => f.fn == 1 && f.ok false true true .optional
  | .cbar f => f.fn == 0 && f.ok false false true .none && cbarImmOk f.imm
  | .kbar f => f.fn == 0 && f.ok false false true .none && kbarImmOk f.imm
  | .mov f => fnIn f.fn [0, 1] && f.ok 0x01 0x0001 false true true false false .none
  | .movi f => f.fn == 0 && f.ok true false true .none
  | .moviSx f => f.fn == 1 && f.ok true false true .none
  | .moviHi f => f.fn == 2 && f.ok true false true .none
  | .sel f => fnIn f.fn [0, 1] && f.ok 0x01 0x0001 false true true true true .none
  | .lea f => fnIn f.fn [0, 1] && f.ok true true true .none
  | .iadd f => f.fn == 0 && f.ok 0xFF 0x0003 false true true true false .none
  | .isub f => f.fn == 0 && f.ok 0xFF 0x0003 false true true true false .none
  | .imul f => f.fn == 0 && f.ok 0xFF 0x0001 false true true true false .none
  | .imulh f => f.fn == 0 && f.ok 0x0F 0x0001 false true true true false .none
  | .imad f => f.fn == 0 && f.ok 0x0F 0x0001 false true true true true .none
  | .imin f => f.fn == 0 && f.ok 0xFF 0x0001 false true true true false .none
  | .imax f => f.fn == 0 && f.ok 0xFF 0x0001 false true true true false .none
  | .iabs f => f.fn == 0 && f.ok 0x55 0x0003 false true true false false .none
  | .iaddcAdd f => f.fn == 0 && f.ok 0x0A 0x0001 false true true true false .required
  | .iaddcAddc f => f.fn == 1 && f.ok 0x0A 0x0001 false true true true false .required
  | .iaddcSub f => f.fn == 2 && f.ok 0x0A 0x0001 false true true true false .required
  | .iaddcSubb f => f.fn == 3 && f.ok 0x0A 0x0001 false true true true false .required
  | .isetp f => fnIn f.fn [0, 1, 2] && f.ok 0x0F 0x003F false false true true false .required
  | .pset f => f.fn == 0 && f.ok 0x01 0x0001 false false true false false .none
  | .psetNz f => f.fn == 1 && f.ok 0x01 0x0001 false false true false false .required
  | .pmov f => f.fn == 0 && f.ok 0x01 0x0001 false true false false false .none
  | .and f => fnIn f.fn [0, 1] && f.ok 0x01 0x0001 false true true true false .none
  | .or f => fnIn f.fn [0, 1] && f.ok 0x01 0x0001 false true true true false .none
  | .xor f => fnIn f.fn [0, 1] && f.ok 0x01 0x0001 false true true true false .none
  | .andn f => fnIn f.fn [0, 1] && f.ok 0x01 0x0001 false true true true false .none
  | .btab f => f.ok 0x01 0x0003 false true true true true .none
  | .shl f => fnIn f.fn [0, 1] && f.ok 0x01 0x0001 false true true true false .none
  | .shr f => fnIn f.fn [0, 1] && f.ok 0x01 0x0001 false true true true false .none
  | .sar f => fnIn f.fn [0, 1] && f.ok 0x01 0x0001 false true true true false .none
  | .rot f => fnIn f.fn [0, 1] && f.ok 0x01 0x0001 false true true true false .none
  | .bfe f => fnIn f.fn [0, 1] && f.ok 0x01 0x0001 false true true true true .none
  | .bfi f => f.fn == 0 && f.ok 0x01 0x0001 false true true true true .none
  | .popc f => fnIn f.fn [0, 1] && f.ok 0x01 0x0001 false true true false false .none
  | .clz f => fnIn f.fn [0, 1] && f.ok 0x01 0x0001 false true true false false .none
  | .brev f => fnIn f.fn [0, 1] && f.ok 0x01 0x0001 false true true false false .none
  | .bysel f => f.fn == 0 && f.ok 0x01 0x0001 false true true true true .none
  | .shflIdx f => f.fn == 0 && f.ok 0x01 0x003F false true true true false .optional
  | .shflUp f => f.fn == 1 && f.ok 0x01 0x003F false true true true false .optional
  | .shflDown f => f.fn == 2 && f.ok 0x01 0x003F false true true true false .optional
  | .shflXor f => f.fn == 3 && f.ok 0x01 0x003F false true true true false .optional
  | .bcast f => f.fn == 0 && f.ok 0x01 0x0003 false true true true false .optional
  | .bcastFirst f => f.fn == 1 && f.ok 0x01 0x0003 false true true false false .optional
  | .rdsr f => f.fn == 0 && f.ok true false true .none && decide (f.imm.toNat ≤ 19)
  | .wrsr f => f.fn == 0 && f.ok false true true .none && (f.imm == 18 || f.imm == 19)
  | .wgrow f => f.fn == 0 && f.ok false false true .optional && resizeImmOk f.imm
  | .wshrink f => f.fn == 0 && f.ok false false true .optional && resizeImmOk f.imm
  | .fadd f => f.fn == 0 && f.ok 0x07 0x0001 true true true true false .none
  | .fsub f => f.fn == 0 && f.ok 0x07 0x0001 true true true true false .none
  | .fmul f => f.fn == 0 && f.ok 0x07 0x0001 true true true true false .none
  | .ffma f => f.fn == 0 && f.ok 0x07 0x000F true true true true true .none
  | .fmin f => f.fn == 0 && f.ok 0x07 0x0001 false true true true false .none
  | .fmax f => f.fn == 0 && f.ok 0x07 0x0001 false true true true false .none
  | .fsetp f => fnIn f.fn [0, 1, 2] && f.ok 0x07 0x3FFF false false true true false .required
  | .fclass f => f.fn == 0 && f.ok 0x07 0x0001 false true true false false .none
  | .frnd f => f.fn == 0 && f.ok 0x07 0x0001 true true true false false .none
  | .fscale f => f.fn == 0 && f.ok 0x07 0x0001 true true true true false .none
  | .hadd2 f => f.fn == 0 && f.ok 0x06 0x0001 true true true true false .none
  | .hmul2 f => f.fn == 0 && f.ok 0x06 0x0001 true true true true false .none
  | .hfma2 f => f.fn == 0 && f.ok 0x06 0x000F true true true true true .none
  | .hmnx2Min f => f.fn == 0 && f.ok 0x06 0x0001 false true true true false .none
  | .hmnx2Max f => f.fn == 1 && f.ok 0x06 0x0001 false true true true false .none
  | .dot2 f => f.fn == 0 && f.ok 0x06 0x0001 true true true true true .none
  | .redlAdd f => f.fn == 0 && f.ok 0x01 0x0001 true true true false false .none
  | .redlMax f => f.fn == 1 && f.ok 0x01 0x0001 false true true false false .none
  | .redlMin f => f.fn == 2 && f.ok 0x01 0x0001 false true true false false .none
  | .cvt f => f.ok 0x01 0x0001 true true true false false .none && cvtFnOk f.fn
  | .cvtiF2i f => f.fn == 0 && f.ok 0x0F 0x0007 true true true false false .none
  | .cvtiI2f f => f.fn == 1 && f.ok 0x0F 0x0007 true true true false false .none
  | .qmx f => f.fn == 0 && f.ok 0x01 0x00FC true true true false true .none
  | .dqmx f => f.fn == 0 && f.ok 0x01 0x00FC true true true true false .none
  | .packH16 f => f.fn == 0 && f.ok 0x01 0x0001 true true true true false .none
  | .packB16 f => f.fn == 1 && f.ok 0x01 0x0001 true true true true false .none
  | .packE4m3 f => f.fn == 2 && f.ok 0x01 0x0003 true true true true false .none
  | .packE5m2 f => f.fn == 3 && f.ok 0x01 0x0003 true true true true false .none
  | .unpack f => fnIn f.fn [0, 1, 2, 3, 4] && f.ok 0x01 0x00FF false true true false false .none && unpackIndexOk f.fn f.md
  | .frcp f => f.fn == 0 && f.ok 0x07 0x0001 false true true false false .none
  | .frsq f => f.fn == 0 && f.ok 0x07 0x0001 false true true false false .none
  | .fsqrt f => f.fn == 0 && f.ok 0x07 0x0001 false true true false false .none
  | .fexp2 f => f.fn == 0 && f.ok 0x07 0x0001 false true true false false .none
  | .flog2 f => f.fn == 0 && f.ok 0x07 0x0001 false true true false false .none
  | .ftanh f => f.fn == 0 && f.ok 0x07 0x0001 false true true false false .none
  | .fsigm f => f.fn == 0 && f.ok 0x07 0x0001 false true true false false .none
  | .fsin f => f.fn == 0 && f.ok 0x07 0x0001 false true true false false .none
  | .fcos f => f.fn == 0 && f.ok 0x07 0x0001 false true true false false .none
  | .ferf f => f.fn == 0 && f.ok 0x07 0x0001 false true true false false .none
  | .fexpm f => f.fn == 0 && f.ok 0x07 0x0001 false true true true true .none
  | .lds f => fnIn f.fn [0, 1] && f.ok 0x1F false 0x1 .none true true true false true && (f.fn == 0 || f.sz.toNat < 2)
  | .sts f => f.fn == 0 && f.ok 0x1F false 0x1 .none true true true false true
  | .ldsr f => fnIn f.fn [0, 1] && f.ok 0x1F false 0x1 .none true true true false true && (f.fn == 0 || f.sz.toNat < 2)
  | .stsr f => f.fn == 0 && f.ok 0x1F false 0x1 .none true true true false true
  | .atoms f => fnIn f.fn [0, 1, 2, 3, 4, 5, 6, 7, 8, 9, 10, 11, 12, 13] && f.ok 0x0C false 0x1 .none true true true true true && (f.fn != 0x0D || f.sz == 2)
  | .lda f => fnIn f.fn [0, 1, 2, 3] && f.ok 0x01 0x000F false true true true false .none
  | .sta f => fnIn f.fn [0, 1, 2, 3] && f.ok 0x01 0x000F false false true true true .none
  | .zacc f => fnIn f.fn [0, 1, 2, 3] && !f.md.getLsbD 0 && f.ok 0x01 0x0001 false false false false false .none
  | .zaccRows f => fnIn f.fn [0, 1, 2, 3] && (f.md.getLsbD 0) && f.ok 0x01 0x0002 false false true true false .none
  | .sfill f => f.fn == 0 && f.ok 0x0C false 0x1 .none true true true true true
  | .msign f => f.ok true false false false false false
  | .wload f => f.fn == 0 && f.ok 0x01 0x00FF false false true true true .none
  | .tmma f => f.fn == 0 && f.ok
  | .adpt f => f.ok
  | .tstat f => f.fn == 0 && f.ok 0x01 0x0001 false true false false false .none
  | .tshape f => f.fn == 0 && f.ok true true true .none
  | .rhdr f => fnIn f.fn [0, 1, 2, 3, 4, 5, 6, 7] && f.ok 0x01 0x0001 false true true false false .none
  | .rhdrFlags f => f.fn == 8 && f.ok 0x01 0x0001 false false true true false .none
  | .tkfwd f => fnIn f.fn [0, 1, 2, 3, 4, 5, 6, 7, 8, 16] && f.ok 0x01 0x0001 false true true true true .none && (f.fn != 0 || f.c == .none)
  | .tkfwdId f => f.fn == 32 && f.ok 0x01 0x0001 false true true true false .none
  | .tkpark f => f.fn == 0 && f.ok 0x01 0x0001 false false true true false .none
  | .tkdone f => f.fn == 0 && f.ok 0x01 0x0001 false false true true false .none
  | .tkdoneEnd f => f.fn == 1 && f.ok 0x01 0x0001 false false true true false .none
  | .tkdoneId f => f.fn == 2 && f.ok 0x01 0x0001 false false true true false .none
  | .tkdoneEndId f => f.fn == 3 && f.ok 0x01 0x0001 false false true true false .none
  | .tknew f => f.fn == 0 && f.ok 0x01 0x0001 false true true true true .none
  | .gatek f => fnIn f.fn [1, 2, 3, 4, 5, 6, 7, 8] && f.ok 0x01 0x0001 false true true true false .optional
  | .colq f => fnIn f.fn [0, 1, 2, 3, 4, 5, 6] && f.ok true true true .none
  | .opbind f => f.fn == 0 && f.ok 0x01 0x0001 false true true true false .none
  | .opunbind f => f.fn == 0 && f.ok 0x01 0x0001 false true false true false .none
  | .opunbindClose f => f.fn == 1 && f.ok 0x01 0x0001 false true false true false .none
  | .board f => f.fn == 0 && f.ok true false false .none
  | .boardSel f => f.fn == 1 && f.ok true true true .none
  | .boardLeave f => f.fn == 2 && f.ok true false false .none
  | .xpred f => fnIn f.fn [1, 2, 3, 4, 5, 6, 7, 8] && f.ok 0x01 0x0001 false true true true true .none
  | .crstat f => fnIn f.fn [0, 1, 2, 3, 4, 5] && f.ok true true true .none && (f.fn == 5 || (f.a == .none && f.imm == 0))
  | .ridgePause f => f.fn == 0 && f.ok true false false .none
  | .ridgeResume f => f.fn == 1 && f.ok true false false .none
  | .ridgeSync f => f.fn == 2 && f.ok true false false .none
  | .ldg f => fnIn f.fn [0, 1] && f.ok 0x3F true 0xF .withSem true true true false true && (f.fn == 0 || f.sz.toNat < 2)
  | .stg f => f.fn == 0 && f.ok 0x3F true 0xF .withSem true true true false true
  | .stgm f => f.fn == 0 && f.ok 0x30 true 0xF .withSem true true true true true
  | .prefSlice f => f.fn == 0 && f.ok 0x01 true 0x1 .none false true true false true
  | .prefMem f => f.fn == 1 && f.ok 0x01 true 0x1 .none false true true false true
  | .fenceAr f => f.fn == 0 && (f.sem == 2) && f.ok 0x01 false 0x4 .withSem false false false false false
  | .fenceAcq f => f.fn == 1 && f.ok 0x01 false 0x4 .withSem false false false false false
  | .fenceRel f => f.fn == 2 && f.ok 0x01 false 0x4 .withSem false false false false false
  | .fenceSc f => f.fn == 0 && (f.sem != 2) && f.ok 0x01 false 0x8 .withSem false false false false false
  | .tlbq f => f.fn == 0 && f.ok 0x01 false 0x1 .none true true true false true
  | .tlbqFill f => f.fn == 1 && f.ok 0x01 false 0x1 .none true true true false true
  | .pghintWill f => f.fn == 0 && f.ok 0x01 false 0x1 .none true true true true true
  | .pghintDont f => f.fn == 1 && f.ok 0x01 false 0x1 .none true true true true true
  | .pghintPin f => f.fn == 2 && f.ok 0x01 false 0x1 .none true true true true true
  | .pghintUnpin f => f.fn == 3 && f.ok 0x01 false 0x1 .none true true true true true
  | .cctlZero f => f.fn == 0 && f.ok 0x01 true 0xF .withSem false true true false true
  | .cctlEvict f => f.fn == 1 && f.ok 0x01 false 0x1 .none false true true false true
  | .cctlHint f => f.fn == 2 && f.ok 0x01 true 0x1 .none false true true false true
  | .waitv f => fnIn f.fn [0, 1, 2] && f.ok 0x0C false 0xE .withSem true true true true true
  | .atom f => fnIn f.fn [0, 1, 2, 3, 4, 5, 6, 7, 8, 9, 10] && f.ok 0x1C true 0xE .withSem true true true true true && (f.fn == 8 || f.sz != 4)
  | .atomr f => fnIn f.fn [0, 1, 2, 3, 4, 5, 6, 9, 10] && f.ok 0x0C true 0x6 .withSem false true true true true
  | .pacq f => f.fn == 0 && f.ok 0x08 false 0x4 .withSem true true true false true
  | .prel f => f.fn == 0 && f.ok 0x08 false 0x4 .withSem false true true false true
  | .ptry f => f.fn == 0 && f.ok 0x08 false 0x4 .withSem true true true false true
  | .tbegin f => f.ok false false true false false true && tbeginImmOk f.imm
  | .tend f => f.ok true false false false false false
  | .tabort f => f.fn == 0 && f.ok false false true .none && (f.imm.toNat < 256)
  | .tstate f => f.fn == 0 && f.ok 0x01 0x0001 false true false false false .none
  | .tstateClr f => f.fn == 1 && f.ok 0x01 0x0001 false true false false false .none
  | .acp f => f.fn == 0 && f.ok 0x3F true 0x1 .none true true true true true
  | .acps f => f.fn == 0 && f.ok 0x3F true 0x1 .none true true true true true
  | .xcopy f => f.fn == 0 && f.ok 0x01 0x00FF false true true true true .none
  | .xmcast f => f.ok false false true true true true && (f.imm.toNat < 2 ^ 22)
  | .xgath f => f.fn == 0 && f.ok 0x01 0x1FFC false true true true true .none
  | .xfill f => f.fn == 0 && f.ok 0x01 0x0033 false true true true true .none
  | .xstatCnt f => f.fn == 0 && f.ok 0x01 0x0001 false true true false false .none
  | .xstatErr f => f.fn == 1 && f.ok 0x01 0x0001 false true true false false .none
  | .xstatEng f => f.fn == 2 && f.ok 0x01 0x0001 false true false false false .none
  | .kvmap f => f.fn == 0 && f.ok 0x01 0x0001 false true true false false .optional
  | .kvmapInfo f => f.fn == 1 && f.ok 0x01 0x0001 false true true false false .optional
  | .kvapp f => f.fn == 0 && f.ok 0x01 0x0001 false true true false false .optional
  | .kvfork f => f.fn == 0 && f.ok 0x01 0x0001 false true true true false .none
  | .kvfree f => f.fn == 0 && f.ok 0x01 0x0001 false true true false false .none
  | .kvfreeAll f => f.fn == 1 && f.ok 0x01 0x0001 false true true false false .none
  | .kstore f => f.fn == 0 && f.ok 0x01 true 0x4 .withSem true true true true false
  | .cgath f => f.fn == 0 && f.ok 0x01 true 0x6 .withSem true true true true true && cgathOfsOk f.ofs
  | .cgathTrap f => f.fn == 1 && f.ok 0x01 true 0x6 .withSem true true true true true && cgathOfsOk f.ofs
  | .cred f => f.fn == 0 && f.ok 0x01 0x0001 false true true true true .none
  | .credNorm f => f.fn == 1 && f.ok 0x01 0x0001 false true true true true .none
  | .cproj f => f.fn == 0 && f.ok 0x01 0xFFFF false false true true true .none
  | .penal f => f.fn == 0 && f.ok 0x01 0x0001 false true true true false .none
  | .cntupd f => f.fn == 0 && f.ok 0x01 0x0001 false true true true false .none
  | .rand f => f.fn == 0 && f.ok 0x01 0x0001 false true true true true .none
  | .randU01 f => f.fn == 1 && f.ok 0x01 0x0001 false true true true true .none
  | .scanb f => f.fn == 0 && f.ok 0x01 0x0001 false true true true true .none
  | .scanbFlush f => f.fn == 1 && f.ok 0x01 0x0001 false true true false false .none
  | .scanbReset f => f.fn == 2 && f.ok 0x01 0x0001 false true true false true .none
  | .scanr f => f.fn == 0 && f.ok 0x01 0x0001 false true true true true .none
  | .seqadm f => f.fn == 0 && f.ok 0x01 0x0001 false true true false false .none
  | .seqadmRel f => f.fn == 1 && f.ok 0x01 0x0001 false true true false false .none
  | .seqadmInfo f => f.fn == 2 && f.ok 0x01 0x0001 false true true false false .none
  | .seqsteal f => f.fn == 0 && f.ok 0x01 0x0001 false true true false false .none
  | .sysc f => f.fn == 0 && f.ok false false true .none
  | .hcall f => f.fn == 0 && f.ok false false true .none
  | .brk f => f.fn == 0 && f.ok false false true .none
  | .rdpr f => f.fn == 0 && f.ok true false true .none && prListed f.imm
  | .wrpr f => f.fn == 0 && f.ok false true true .none && prListed f.imm
  | .wrprX f => f.fn == 1 && f.ok true true true .none && prListed f.imm
  | .tlbinvVa f => f.fn == 0 && f.ok 0x01 false 0x1 .tlb false true true false true
  | .tlbinvAsid f => f.fn == 1 && f.ok 0x01 false 0x1 .tlb false false false true false
  | .tlbinvVmid f => f.fn == 2 && f.ok 0x01 false 0x1 .tlb false false false true false
  | .tlbinvAll f => f.fn == 3 && f.ok 0x01 false 0x1 .tlb false false false false false
  | .ctxsv f => f.fn == 0 && f.ok 0x01 0x0001 false true true true false .none
  | .ctxld f => f.fn == 0 && f.ok 0x01 0x0001 false true true true false .none
  | .replayData f => f.ok false false true false false false
  | .haltgStop f => f.ok false false true true false true
  | .haltgGo f => f.ok false false true true false true
  | .haltgKill f => f.ok false false true true false true
  | .haltgQuery f => f.ok false false true true false false
  | .svcfgBudget f => f.fn == 0 && f.ok false true true .none
  | .pgdone f => f.fn == 0 && f.ok 0x01 0x0001 false true true false false .none
  | .pgdoneDeny f => f.fn == 1 && f.ok 0x01 0x0001 false true true false false .none
  | .freezeRegion f => f.fn == 0 && f.ok false false true .none && (f.imm.toNat < 16)
  | .freezeThaw f => f.fn == 1 && f.ok false false true .none && (f.imm.toNat < 16)
  | .freezeSlot f => f.fn == 2 && f.ok false false true .none && (f.imm.toNat < 4)
  | .freezeSlotthaw f => f.fn == 3 && f.ok false false true .none && (f.imm.toNat < 4)
  | .nop => true
  | .exit => true
  | .yield => true
  | .yieldAge => true
  | .wloadRel => true
  | .sret => true
  | .hret => true
  | .replayRetry => true
  | .replayOp => true
  | .svcfgNoidem => true
  | .groupRetire => true
  | .napExpiry => true
  | .barrierRelease => true
  | .issueSelect => true
  | .lineRefetch => true
  | .asyncEventTake => true
  | .sfillComplete => true
  | .spmapWrite => true
  | .accownWrite => true
  | .bankReady => true
  | .landingBufferMove => true
  | .arrayStart => true
  | .arrayOpComplete => true
  | .recordEnterCol => true
  | .colFireTimeout => true
  | .colFireFill => true
  | .dispatchPlace => true
  | .adapterPrefetchWarm => true
  | .tokenPacketArrive => true
  | .tokenPacketAck => true
  | .balancerClone => true
  | .balancerClose => true
  | .mergeRelease => true
  | .stallWatchHang => true
  | .boardTakeEffect => true
  | .passOpen => true
  | .blockReadIssue => true
  | .blockDeliver => true
  | .rideEject => true
  | .waitvRecheck => true
  | .tlbWalkComplete => true
  | .faultRecordWrite => true
  | .memRequestSlotGrant => true
  | .memAccessPerform => true
  | .accessReply => true
  | .replMulticastStore => true
  | .settleSweep => true
  | .tlbinvSwitch => true
  | .svcRequestPerform => true
  | .pacqRetry => true
  | .portalCompletion => true
  | .fallbackPermitGrant => true
  | .txValidateTimer => true
  | .txValidateReply => true
  | .acpTransferComplete => true
  | .enginePiece => true
  | .engineRequestComplete => true
  | .xmcastTargetArrive => true
  | .kvRequestPerform => true
  | .kvCowCopyRead => true
  | .kstorePublish => true
  | .credMerge => true
  | .scanRequestPerform => true
  | .budgetExpire => true
  | .pkgcfgWrite => true
  | .lattolWrite => true
  | .msixdbWrite => true
  | .mgmtRegWrite => true
  | .hostBar2Read => true
  | .hostBar2Write => true
  | .hostAtomicop => true
  | .peerRequest => true
  | .pslPortDown => true
  | .powerStateChange => true
  | .wakeEvent => true
  | .startup => true
  | .firmwareReload => true
  | .frozenRideEject => true
  | .arrayStreamingEnd => true
  | .gatherPortReply => true

end Sys2Proof
end

