-- ==== Sys2Proof/WellFormed.lean ====
section
/-!
DEFINITION. Well-formed instructions: those whose fields pass check 6 of R69 (the check itself is Machine/Legality.lean,
written from the encoding tables of the spec).
-/
namespace Sys2Proof

/-- An instruction that some word of the machine encodes, or an event. -/
def Instr.WellFormed (i : Instr) : Prop := i.legal = true

end Sys2Proof
end

