-- ==== Sys2Proof/Decode.lean ====
section
/-!
DEFINITION. Decoding of 96-bit instruction words (spec/03, R54 to R68) and, after it, the encoder, both written from the
same encoding tables. Decoding is total and rejects by name; a rejected word raises the illegal-instruction trap (R69
check 6). The bit-field helpers of the encoding stand here too.
-/
namespace Sys2Proof

/-- Why a word is no instruction. -/
inductive DecodeError
  /-- An opcode of R68. -/
  | unassignedOpcode
  /-- An FN value the opcode does not define (R61). -/
  | undefinedFn
  /-- A nonzero bit that the format requires to be zero (R55 to R60). -/
  | mustBeZero
  /-- An unused field not at its unused value, or a field value the instruction does not admit (R61, R64, R65, R66). -/
  | illegalField
deriving DecidableEq, Repr

/-- A register field (R62). -/
def Operand.ofBits (b : BitVec 10) : Operand :=
  if h : b.toNat < 640 then .v ⟨b.toNat, h⟩
  else if h : b.toNat < 704 then .s ⟨b.toNat - 640, by omega⟩
  else if h : b.toNat < 712 then .ct ⟨b.toNat - 704, by omega⟩
  else if h : b.toNat < 768 then .resv ⟨b.toNat - 712, by omega⟩
  else if h : b.toNat < 1023 then .const ⟨b.toNat - 768, by omega⟩
  else .none

/-- The 10 bits of a register field (R62). -/
def Operand.toBits : Operand → BitVec 10
  | .v n => BitVec.ofNat 10 n.val
  | .s n => BitVec.ofNat 10 (640 + n.val)
  | .ct n => BitVec.ofNat 10 (704 + n.val)
  | .resv n => BitVec.ofNat 10 (712 + n.val)
  | .const n => BitVec.ofNat 10 (768 + n.val)
  | .none => 1023#10

/-- The PD field (R55): 15 is none. -/
def pdOfBits (b : BitVec 4) : Option (Fin 15) := if h : b.toNat < 15 then some ⟨b.toNat, h⟩ else none

/-- The 4 bits of a PD field. -/
def pdToBits : Option (Fin 15) → BitVec 4
  | some n => BitVec.ofNat 4 n.val
  | none => 15#4

/-- FN (R54). -/
def fnOf (w : BitVec 96) : BitVec 8 := w.extractLsb' 80 8

/-- The predicate fields (R54). -/
def Guard.unpack (w : BitVec 96) : Guard where
  pn := w.getLsbD 79
  ps := (w.extractLsb' 75 4).toFin

/-- Format F3 (R55). -/
def F3.unpack (w : BitVec 96) : Option F3 :=
  if w.extractLsb' 0 22 = 0#22 then some {
    fn := fnOf w, ty := w.extractLsb' 72 3, rm := w.extractLsb' 70 2, md := w.extractLsb' 66 4,
    d := .ofBits (w.extractLsb' 56 10), a := .ofBits (w.extractLsb' 46 10),
    b := .ofBits (w.extractLsb' 36 10), c := .ofBits (w.extractLsb' 26 10),
    pd := pdOfBits (w.extractLsb' 22 4) }
  else none

/-- Format FI (R56). -/
def FI.unpack (w : BitVec 96) : Option FI :=
  if w.extractLsb' 32 10 = 0#10 then some {
    fn := fnOf w, ty := w.extractLsb' 72 3, rm := w.extractLsb' 70 2, md := w.extractLsb' 66 4,
    d := .ofBits (w.extractLsb' 56 10), a := .ofBits (w.extractLsb' 46 10),
    pd := pdOfBits (w.extractLsb' 42 4), imm := w.extractLsb' 0 32 }
  else none

/-- Format FM (R57). Every bit belongs to a field. -/
def FM.unpack (w : BitVec 96) : Option FM := some {
    fn := fnOf w, sz := w.extractLsb' 72 3, rd := w.extractLsb' 70 2, sem := w.extractLsb' 68 2, scope := w.extractLsb' 66 2,
    d := .ofBits (w.extractLsb' 56 10), a := .ofBits (w.extractLsb' 46 10),
    b := .ofBits (w.extractLsb' 36 10), c := .ofBits (w.extractLsb' 26 10), ofs := w.extractLsb' 0 26 }

/-- Format FB (R58). -/
def FB.unpack (w : BitVec 96) : Option FB :=
  if w.extractLsb' 66 8 = 0#8 ∧ w.extractLsb' 29 17 = 0#17 then some {
    kind := w.getLsbD 74, lnk := .ofBits (w.extractLsb' 56 10), tgtr := .ofBits (w.extractLsb' 46 10),
    slot := w.extractLsb' 26 3, lofs := w.extractLsb' 0 26 }
  else none

/-- Format FK (R59). -/
def FK.unpack (w : BitVec 96) : Option FK :=
  if w.extractLsb' 66 1 = 0#1 ∧ w.extractLsb' 32 4 = 0#4 then some {
    mask := (w.extractLsb' 71 4).toFin, mask2 := (w.extractLsb' 67 4).toFin,
    d := .ofBits (w.extractLsb' 56 10), a := .ofBits (w.extractLsb' 46 10),
    b := .ofBits (w.extractLsb' 36 10), imm := w.extractLsb' 0 32 }
  else none

/-- Format FT (R60). -/
def FT.unpack (w : BitVec 96) : Option FT :=
  if w.extractLsb' 0 26 = 0#26 then some {
    fn := fnOf w, shape := w.extractLsb' 72 3, acc := (w.extractLsb' 70 2).toFin, cv := (w.extractLsb' 66 4).toFin,
    da := .ofBits (w.extractLsb' 56 10), db := .ofBits (w.extractLsb' 46 10),
    epi := w.extractLsb' 40 6, fmta := w.extractLsb' 36 4, c := .ofBits (w.extractLsb' 26 10) }
  else none

/-- An instruction of a format, or the rejection of the format's must-be-zero bits. -/
def ofFormat {α : Type} (f : Option α) (k : α → Instr) : Except DecodeError Instr :=
  match f with
  | some x => .ok (k x)
  | none => .error .mustBeZero

/-- An instruction that uses no field: its word holds the unused value in each (R61). -/
def bare {α : Type} (f : Option α) (p : α → Bool) (i : Instr) : Except DecodeError Instr :=
  match f with
  | some x => if p x then .ok i else .error .illegalField
  | none => .error .mustBeZero

/-- The row of the encoding tables that OP (R67) and FN name, before check 6 looks at the other fields. -/
def candidate (w : BitVec 96) : Except DecodeError Instr :=
  let fn := (fnOf w).toNat
  match (w.extractLsb' 88 8).toNat with
  | 0 => bare (F3.unpack w) (fun f => decide (f = F3.unused)) .nop
  | 1 =>
    match fn with
    | 0 => ofFormat (FB.unpack w) .bra
    | _ => .error .undefinedFn
  | 2 =>
    match fn with
    | 0 => ofFormat (FB.unpack w) .brx
    | _ => .error .undefinedFn
  | 3 =>
    match fn with
    | 0 => ofFormat (FB.unpack w) .call
    | _ => .error .undefinedFn
  | 4 =>
    match fn with
    | 0 => ofFormat (FB.unpack w) .ret
    | _ => .error .undefinedFn
  | 5 =>
    match fn with
    | 0 => ofFormat (FK.unpack w) .join
    | _ => .error .undefinedFn
  | 6 =>
    match fn with
    | 0 => ofFormat (FK.unpack w) .leave
    | _ => .error .undefinedFn
  | 7 =>
    match fn with
    | 0 => ofFormat (FK.unpack w) .waitm
    | _ => .error .undefinedFn
  | 8 =>
    match fn with
    | 0 => ofFormat (FK.unpack w) .voteBallot
    | 1 => ofFormat (FK.unpack w) .voteAll
    | 2 => ofFormat (FK.unpack w) .voteAny
    | 3 => ofFormat (FK.unpack w) .voteEq
    | 4 => ofFormat (FK.unpack w) .voteMask
    | _ => .error .undefinedFn
  | 9 =>
    match fn with
    | 0 => ofFormat (FK.unpack w) .elect
    | 1 => ofFormat (FK.unpack w) .electIn
    | _ => .error .undefinedFn
  | 10 =>
    match fn with
    | 0 => ofFormat (FK.unpack w) .msetMov
    | 1 => ofFormat (FK.unpack w) .msetOr
    | 2 => ofFormat (FK.unpack w) .msetAnd
    | 3 => ofFormat (FK.unpack w) .msetAndn
    | _ => .error .undefinedFn
  | 11 =>
    match fn with
    | 0 => ofFormat (FK.unpack w) .mget
    | 1 => ofFormat (FK.unpack w) .mgetArr
    | 2 => ofFormat (FK.unpack w) .mgetLive
    | _ => .error .undefinedFn
  | 12 =>
    match fn with
    | 0 => ofFormat (FB.unpack w) .spawn
    | _ => .error .undefinedFn
  | 13 => bare (F3.unpack w) (fun f => decide (f = F3.unused)) .exit
  | 14 =>
    match fn with
    | 0 => bare (F3.unpack w) (fun f => decide (f = F3.unused)) .yield
    | 1 => bare (F3.unpack w) (fun f => decide (f = { F3.unused with fn := 1 })) .yieldAge
    | _ => .error .undefinedFn
  | 15 => ofFormat (FI.unpack w) .nap
  | 16 => ofFormat (FI.unpack w) .bari
  | 17 =>
    match fn with
    | 0 => ofFormat (FI.unpack w) .arrive
    | 1 => ofFormat (FI.unpack w) .arriveOne
    | _ => .error .undefinedFn
  | 18 =>
    match fn with
    | 0 => ofFormat (FI.unpack w) .await
    | 1 => ofFormat (FI.unpack w) .awaitTest
    | _ => .error .undefinedFn
  | 19 => ofFormat (FI.unpack w) .cbar
  | 20 => ofFormat (FI.unpack w) .kbar
  | 32 => ofFormat (F3.unpack w) .mov
  | 33 =>
    match fn with
    | 0 => ofFormat (FI.unpack w) .movi
    | 1 => ofFormat (FI.unpack w) .moviSx
    | 2 => ofFormat (FI.unpack w) .moviHi
    | _ => .error .undefinedFn
  | 34 => ofFormat (F3.unpack w) .sel
  | 35 => ofFormat (F3.unpack w) .iadd
  | 36 => ofFormat (F3.unpack w) .isub
  | 37 => ofFormat (F3.unpack w) .imul
  | 38 => ofFormat (F3.unpack w) .imulh
  | 39 => ofFormat (F3.unpack w) .imad
  | 40 =>
    match fn with
    | 0 => ofFormat (F3.unpack w) .iaddcAdd
    | 1 => ofFormat (F3.unpack w) .iaddcAddc
    | 2 => ofFormat (F3.unpack w) .iaddcSub
    | 3 => ofFormat (F3.unpack w) .iaddcSubb
    | _ => .error .undefinedFn
  | 41 => ofFormat (FI.unpack w) .lea
  | 42 => ofFormat (F3.unpack w) .imin
  | 43 => ofFormat (F3.unpack w) .imax
  | 44 => ofFormat (F3.unpack w) .iabs
  | 45 => ofFormat (F3.unpack w) .isetp
  | 46 =>
    match fn with
    | 0 => ofFormat (F3.unpack w) .pset
    | 1 => ofFormat (F3.unpack w) .psetNz
    | _ => .error .undefinedFn
  | 47 => ofFormat (F3.unpack w) .pmov
  | 48 => ofFormat (F3.unpack w) .and
  | 49 => ofFormat (F3.unpack w) .or
  | 50 => ofFormat (F3.unpack w) .xor
  | 51 => ofFormat (F3.unpack w) .andn
  | 52 => ofFormat (F3.unpack w) .btab
  | 53 => ofFormat (F3.unpack w) .shl
  | 54 => ofFormat (F3.unpack w) .shr
  | 55 => ofFormat (F3.unpack w) .sar
  | 56 => ofFormat (F3.unpack w) .rot
  | 57 => ofFormat (F3.unpack w) .bfe
  | 58 => ofFormat (F3.unpack w) .bfi
  | 59 => ofFormat (F3.unpack w) .popc
  | 60 => ofFormat (F3.unpack w) .clz
  | 61 => ofFormat (F3.unpack w) .brev
  | 62 =>
    match fn with
    | 0 => ofFormat (F3.unpack w) .shflIdx
    | 1 => ofFormat (F3.unpack w) .shflUp
    | 2 => ofFormat (F3.unpack w) .shflDown
    | 3 => ofFormat (F3.unpack w) .shflXor
    | _ => .error .undefinedFn
  | 63 =>
    match fn with
    | 0 => ofFormat (F3.unpack w) .bcast
    | 1 => ofFormat (F3.unpack w) .bcastFirst
    | _ => .error .undefinedFn
  | 64 => ofFormat (FI.unpack w) .rdsr
  | 65 => ofFormat (FI.unpack w) .wrsr
  | 66 => ofFormat (FI.unpack w) .wgrow
  | 67 => ofFormat (FI.unpack w) .wshrink
  | 68 => ofFormat (F3.unpack w) .bysel
  | 80 => ofFormat (F3.unpack w) .fadd
  | 81 => ofFormat (F3.unpack w) .fsub
  | 82 => ofFormat (F3.unpack w) .fmul
  | 83 => ofFormat (F3.unpack w) .ffma
  | 84 => ofFormat (F3.unpack w) .fmin
  | 85 => ofFormat (F3.unpack w) .fmax
  | 86 => ofFormat (F3.unpack w) .fsetp
  | 87 => ofFormat (F3.unpack w) .fclass
  | 88 => ofFormat (F3.unpack w) .frnd
  | 89 => ofFormat (F3.unpack w) .fscale
  | 90 => ofFormat (F3.unpack w) .hadd2
  | 91 => ofFormat (F3.unpack w) .hmul2
  | 92 => ofFormat (F3.unpack w) .hfma2
  | 93 =>
    match fn with
    | 0 => ofFormat (F3.unpack w) .hmnx2Min
    | 1 => ofFormat (F3.unpack w) .hmnx2Max
    | _ => .error .undefinedFn
  | 94 => ofFormat (F3.unpack w) .dot2
  | 95 =>
    match fn with
    | 0 => ofFormat (F3.unpack w) .redlAdd
    | 1 => ofFormat (F3.unpack w) .redlMax
    | 2 => ofFormat (F3.unpack w) .redlMin
    | _ => .error .undefinedFn
  | 96 => ofFormat (F3.unpack w) .cvt
  | 97 =>
    match fn with
    | 0 => ofFormat (F3.unpack w) .cvtiF2i
    | 1 => ofFormat (F3.unpack w) .cvtiI2f
    | _ => .error .undefinedFn
  | 98 => ofFormat (F3.unpack w) .qmx
  | 99 => ofFormat (F3.unpack w) .dqmx
  | 100 =>
    match fn with
    | 0 => ofFormat (F3.unpack w) .packH16
    | 1 => ofFormat (F3.unpack w) .packB16
    | 2 => ofFormat (F3.unpack w) .packE4m3
    | 3 => ofFormat (F3.unpack w) .packE5m2
    | _ => .error .undefinedFn
  | 101 => ofFormat (F3.unpack w) .unpack
  | 112 => ofFormat (F3.unpack w) .frcp
  | 113 => ofFormat (F3.unpack w) .frsq
  | 114 => ofFormat (F3.unpack w) .fsqrt
  | 115 => ofFormat (F3.unpack w) .fexp2
  | 116 => ofFormat (F3.unpack w) .flog2
  | 117 => ofFormat (F3.unpack w) .ftanh
  | 118 => ofFormat (F3.unpack w) .fsigm
  | 119 => ofFormat (F3.unpack w) .fsin
  | 120 => ofFormat (F3.unpack w) .fcos
  | 121 => ofFormat (F3.unpack w) .fexpm
  | 122 => ofFormat (F3.unpack w) .ferf
  | 128 => ofFormat (FM.unpack w) .lds
  | 129 => ofFormat (FM.unpack w) .sts
  | 130 => ofFormat (FM.unpack w) .ldsr
  | 131 => ofFormat (FM.unpack w) .stsr
  | 132 => ofFormat (FM.unpack w) .atoms
  | 133 => ofFormat (F3.unpack w) .lda
  | 134 => ofFormat (F3.unpack w) .sta
  | 135 => ofFormat (F3.unpack w) (fun f => if f.md.getLsbD 0 then .zaccRows f else .zacc f)
  | 136 => ofFormat (FM.unpack w) .sfill
  | 144 =>
    match fn with
    | 0 => ofFormat (FK.unpack w) .msign
    | _ => .error .undefinedFn
  | 145 =>
    match fn with
    | 0 => ofFormat (F3.unpack w) .wload
    | 1 => bare (F3.unpack w) (fun f => decide (f = { F3.unused with fn := 1 })) .wloadRel
    | _ => .error .undefinedFn
  | 146 => ofFormat (FT.unpack w) .tmma
  | 147 => ofFormat (FT.unpack w) .adpt
  | 148 => ofFormat (F3.unpack w) .tstat
  | 149 => ofFormat (FI.unpack w) .tshape
  | 160 =>
    match fn with
    | 0 | 1 | 2 | 3 | 4 | 5 | 6 | 7 => ofFormat (F3.unpack w) .rhdr
    | 8 => ofFormat (F3.unpack w) .rhdrFlags
    | _ => .error .undefinedFn
  | 161 =>
    match fn with
    | 0 | 1 | 2 | 3 | 4 | 5 | 6 | 7 | 8 | 16 => ofFormat (F3.unpack w) .tkfwd
    | 32 => ofFormat (F3.unpack w) .tkfwdId
    | _ => .error .undefinedFn
  | 162 => ofFormat (F3.unpack w) .tkpark
  | 163 =>
    match fn with
    | 0 => ofFormat (F3.unpack w) .tkdone
    | 1 => ofFormat (F3.unpack w) .tkdoneEnd
    | 2 => ofFormat (F3.unpack w) .tkdoneId
    | 3 => ofFormat (F3.unpack w) .tkdoneEndId
    | _ => .error .undefinedFn
  | 164 => ofFormat (F3.unpack w) .tknew
  | 165 => ofFormat (F3.unpack w) .gatek
  | 166 => ofFormat (FI.unpack w) .colq
  | 167 =>
    match fn with
    | 0 => ofFormat (FI.unpack w) .board
    | 1 => ofFormat (FI.unpack w) .boardSel
    | 2 => ofFormat (FI.unpack w) .boardLeave
    | _ => .error .undefinedFn
  | 168 => ofFormat (F3.unpack w) .xpred
  | 169 => ofFormat (FI.unpack w) .crstat
  | 170 => ofFormat (F3.unpack w) .opbind
  | 171 =>
    match fn with
    | 0 => ofFormat (F3.unpack w) .opunbind
    | 1 => ofFormat (F3.unpack w) .opunbindClose
    | _ => .error .undefinedFn
  | 172 =>
    match fn with
    | 0 => ofFormat (FI.unpack w) .ridgePause
    | 1 => ofFormat (FI.unpack w) .ridgeResume
    | 2 => ofFormat (FI.unpack w) .ridgeSync
    | _ => .error .undefinedFn
  | 176 => ofFormat (FM.unpack w) .ldg
  | 177 => ofFormat (FM.unpack w) .stg
  | 178 => ofFormat (FM.unpack w) .stgm
  | 179 =>
    match fn with
    | 0 => ofFormat (FM.unpack w) .prefSlice
    | 1 => ofFormat (FM.unpack w) .prefMem
    | _ => .error .undefinedFn
  | 180 =>
    match fn with
    | 0 => ofFormat (FM.unpack w) (fun f => if f.sem = 2#2 then .fenceAr f else .fenceSc f)
    | 1 => ofFormat (FM.unpack w) .fenceAcq
    | 2 => ofFormat (FM.unpack w) .fenceRel
    | _ => .error .undefinedFn
  | 181 =>
    match fn with
    | 0 => ofFormat (FM.unpack w) .tlbq
    | 1 => ofFormat (FM.unpack w) .tlbqFill
    | _ => .error .undefinedFn
  | 182 =>
    match fn with
    | 0 => ofFormat (FM.unpack w) .pghintWill
    | 1 => ofFormat (FM.unpack w) .pghintDont
    | 2 => ofFormat (FM.unpack w) .pghintPin
    | 3 => ofFormat (FM.unpack w) .pghintUnpin
    | _ => .error .undefinedFn
  | 183 =>
    match fn with
    | 0 => ofFormat (FM.unpack w) .cctlZero
    | 1 => ofFormat (FM.unpack w) .cctlEvict
    | 2 => ofFormat (FM.unpack w) .cctlHint
    | _ => .error .undefinedFn
  | 184 => ofFormat (FM.unpack w) .waitv
  | 192 => ofFormat (FM.unpack w) .atom
  | 193 => ofFormat (FM.unpack w) .atomr
  | 194 => ofFormat (FM.unpack w) .pacq
  | 195 => ofFormat (FM.unpack w) .prel
  | 196 => ofFormat (FM.unpack w) .ptry
  | 197 =>
    match fn with
    | 0 => ofFormat (FK.unpack w) .tbegin
    | _ => .error .undefinedFn
  | 198 =>
    match fn with
    | 0 => ofFormat (FK.unpack w) .tend
    | _ => .error .undefinedFn
  | 199 => ofFormat (FI.unpack w) .tabort
  | 200 =>
    match fn with
    | 0 => ofFormat (F3.unpack w) .tstate
    | 1 => ofFormat (F3.unpack w) .tstateClr
    | _ => .error .undefinedFn
  | 208 => ofFormat (FM.unpack w) .acp
  | 209 => ofFormat (FM.unpack w) .acps
  | 210 => ofFormat (F3.unpack w) .xcopy
  | 211 =>
    match fn with
    | 0 => ofFormat (FK.unpack w) .xmcast
    | _ => .error .undefinedFn
  | 212 => ofFormat (F3.unpack w) .xgath
  | 213 => ofFormat (F3.unpack w) .xfill
  | 214 =>
    match fn with
    | 0 => ofFormat (F3.unpack w) .xstatCnt
    | 1 => ofFormat (F3.unpack w) .xstatErr
    | 2 => ofFormat (F3.unpack w) .xstatEng
    | _ => .error .undefinedFn
  | 224 =>
    match fn with
    | 0 => ofFormat (F3.unpack w) .kvmap
    | 1 => ofFormat (F3.unpack w) .kvmapInfo
    | _ => .error .undefinedFn
  | 225 => ofFormat (F3.unpack w) .kvapp
  | 226 => ofFormat (F3.unpack w) .kvfork
  | 227 =>
    match fn with
    | 0 => ofFormat (F3.unpack w) .kvfree
    | 1 => ofFormat (F3.unpack w) .kvfreeAll
    | _ => .error .undefinedFn
  | 228 => ofFormat (FM.unpack w) .kstore
  | 229 =>
    match fn with
    | 0 => ofFormat (FM.unpack w) .cgath
    | 1 => ofFormat (FM.unpack w) .cgathTrap
    | _ => .error .undefinedFn
  | 230 =>
    match fn with
    | 0 => ofFormat (F3.unpack w) .cred
    | 1 => ofFormat (F3.unpack w) .credNorm
    | _ => .error .undefinedFn
  | 231 => ofFormat (F3.unpack w) .penal
  | 232 => ofFormat (F3.unpack w) .cntupd
  | 233 =>
    match fn with
    | 0 => ofFormat (F3.unpack w) .rand
    | 1 => ofFormat (F3.unpack w) .randU01
    | _ => .error .undefinedFn
  | 234 =>
    match fn with
    | 0 => ofFormat (F3.unpack w) .scanb
    | 1 => ofFormat (F3.unpack w) .scanbFlush
    | 2 => ofFormat (F3.unpack w) .scanbReset
    | _ => .error .undefinedFn
  | 235 => ofFormat (F3.unpack w) .scanr
  | 236 =>
    match fn with
    | 0 => ofFormat (F3.unpack w) .seqadm
    | 1 => ofFormat (F3.unpack w) .seqadmRel
    | 2 => ofFormat (F3.unpack w) .seqadmInfo
    | _ => .error .undefinedFn
  | 237 => ofFormat (F3.unpack w) .seqsteal
  | 238 => ofFormat (F3.unpack w) .cproj
  | 240 => ofFormat (FI.unpack w) .sysc
  | 241 => bare (F3.unpack w) (fun f => decide (f = F3.unused)) .sret
  | 242 => ofFormat (FI.unpack w) .hcall
  | 243 => bare (F3.unpack w) (fun f => decide (f = F3.unused)) .hret
  | 244 => ofFormat (FI.unpack w) .rdpr
  | 245 =>
    match fn with
    | 0 => ofFormat (FI.unpack w) .wrpr
    | 1 => ofFormat (FI.unpack w) .wrprX
    | _ => .error .undefinedFn
  | 246 =>
    match fn with
    | 0 => ofFormat (FM.unpack w) .tlbinvVa
    | 1 => ofFormat (FM.unpack w) .tlbinvAsid
    | 2 => ofFormat (FM.unpack w) .tlbinvVmid
    | 3 => ofFormat (FM.unpack w) .tlbinvAll
    | _ => .error .undefinedFn
  | 247 => ofFormat (F3.unpack w) .ctxsv
  | 248 => ofFormat (F3.unpack w) .ctxld
  | 249 => ofFormat (FI.unpack w) .brk
  | 250 =>
    match fn with
    | 0 => ofFormat (FK.unpack w) .replayData
    | 1 => bare (FK.unpack w) (fun f => decide (f = FK.unused)) .replayRetry
    | 2 => bare (FK.unpack w) (fun f => decide (f = FK.unused)) .replayOp
    | _ => .error .undefinedFn
  | 251 =>
    match fn with
    | 0 => ofFormat (FK.unpack w) .haltgStop
    | 1 => ofFormat (FK.unpack w) .haltgGo
    | 2 => ofFormat (FK.unpack w) .haltgKill
    | 3 => ofFormat (FK.unpack w) .haltgQuery
    | _ => .error .undefinedFn
  | 252 =>
    match fn with
    | 0 => ofFormat (FI.unpack w) .svcfgBudget
    | 1 => bare (FI.unpack w) (fun f => decide (f = { FI.unused with fn := 1 })) .svcfgNoidem
    | _ => .error .undefinedFn
  | 253 =>
    match fn with
    | 0 => ofFormat (F3.unpack w) .pgdone
    | 1 => ofFormat (F3.unpack w) .pgdoneDeny
    | _ => .error .undefinedFn
  | 254 =>
    match fn with
    | 0 => ofFormat (FI.unpack w) .freezeRegion
    | 1 => ofFormat (FI.unpack w) .freezeThaw
    | 2 => ofFormat (FI.unpack w) .freezeSlot
    | 3 => ofFormat (FI.unpack w) .freezeSlotthaw
    | _ => .error .undefinedFn
  | _ => .error .unassignedOpcode

/-- Decoding: the predicate, and the row that OP and FN name if every other field is legal for it (R61, R69 check 6). -/
def decode (w : BitVec 96) : Except DecodeError (Guard × Instr) :=
  match candidate w with
  | .ok i => if i.legal then .ok (Guard.unpack w, i) else .error .illegalField
  | .error e => .error e

/-- The 75 bits below the head (R55). -/
def F3.pack (f : F3) : BitVec 75 :=
  f.ty ++ f.rm ++ f.md ++ f.d.toBits ++ f.a.toBits ++ f.b.toBits ++ f.c.toBits ++ pdToBits f.pd ++ 0#22

/-- The 75 bits below the head (R56). -/
def FI.pack (f : FI) : BitVec 75 :=
  f.ty ++ f.rm ++ f.md ++ f.d.toBits ++ f.a.toBits ++ pdToBits f.pd ++ 0#10 ++ f.imm

/-- The 75 bits below the head (R57). -/
def FM.pack (f : FM) : BitVec 75 :=
  f.sz ++ f.rd ++ f.sem ++ f.scope ++ f.d.toBits ++ f.a.toBits ++ f.b.toBits ++ f.c.toBits ++ f.ofs

/-- The 75 bits below the head (R58). -/
def FB.pack (f : FB) : BitVec 75 :=
  BitVec.ofBool f.kind ++ 0#8 ++ f.lnk.toBits ++ f.tgtr.toBits ++ 0#17 ++ f.slot ++ f.lofs

/-- The 75 bits below the head (R59). -/
def FK.pack (f : FK) : BitVec 75 :=
  BitVec.ofFin (w := 4) f.mask ++ BitVec.ofFin (w := 4) f.mask2 ++ 0#1 ++ f.d.toBits ++ f.a.toBits ++ f.b.toBits ++ 0#4 ++ f.imm

/-- The 75 bits below the head (R60). -/
def FT.pack (f : FT) : BitVec 75 :=
  f.shape ++ BitVec.ofFin (w := 2) f.acc ++ BitVec.ofFin (w := 4) f.cv ++ f.da.toBits ++ f.db.toBits ++ f.epi ++ f.fmta ++
    f.c.toBits ++ 0#26

/-- The whole word: OP, FN, the predicate (R54) and the format's bits. -/
def word (op fn : BitVec 8) (g : Guard) (body : BitVec 75) : BitVec 96 :=
  op ++ fn ++ BitVec.ofBool g.pn ++ BitVec.ofFin (w := 4) g.ps ++ body

/-- The encoding of an instruction under a predicate; none for an event, which has no encoding (spec/95). -/
def encode (g : Guard) : Instr → Option (BitVec 96)
  | .bra f => some (word 1#8 0#8 g f.pack)
  | .brx f => some (word 2#8 0#8 g f.pack)
  | .call f => some (word 3#8 0#8 g f.pack)
  | .ret f => some (word 4#8 0#8 g f.pack)
  | .join f => some (word 5#8 0#8 g f.pack)
  | .leave f => some (word 6#8 0#8 g f.pack)
  | .waitm f => some (word 7#8 0#8 g f.pack)
  | .voteBallot f => some (word 8#8 0#8 g f.pack)
  | .voteAll f => some (word 8#8 1#8 g f.pack)
  | .voteAny f => some (word 8#8 2#8 g f.pack)
  | .voteEq f => some (word 8#8 3#8 g f.pack)
  | .voteMask f => some (word 8#8 4#8 g f.pack)
  | .elect f => some (word 9#8 0#8 g f.pack)
  | .electIn f => some (word 9#8 1#8 g f.pack)
  | .msetMov f => some (word 10#8 0#8 g f.pack)
  | .msetOr f => some (word 10#8 1#8 g f.pack)
  | .msetAnd f => some (word 10#8 2#8 g f.pack)
  | .msetAndn f => some (word 10#8 3#8 g f.pack)
  | .mget f => some (word 11#8 0#8 g f.pack)
  | .mgetArr f => some (word 11#8 1#8 g f.pack)
  | .mgetLive f => some (word 11#8 2#8 g f.pack)
  | .spawn f => some (word 12#8 0#8 g f.pack)
  | .nap f => some (word 15#8 f.fn g f.pack)
  | .bari f => some (word 16#8 f.fn g f.pack)
  | .arrive f => some (word 17#8 f.fn g f.pack)
  | .arriveOne f => some (word 17#8 f.fn g f.pack)
  | .await f => some (word 18#8 f.fn g f.pack)
  | .awaitTest f => some (word 18#8 f.fn g f.pack)
  | .cbar f => some (word 19#8 f.fn g f.pack)
  | .kbar f => some (word 20#8 f.fn g f.pack)
  | .mov f => some (word 32#8 f.fn g f.pack)
  | .movi f => some (word 33#8 f.fn g f.pack)
  | .moviSx f => some (word 33#8 f.fn g f.pack)
  | .moviHi f => some (word 33#8 f.fn g f.pack)
  | .sel f => some (word 34#8 f.fn g f.pack)
  | .lea f => some (word 41#8 f.fn g f.pack)
  | .iadd f => some (word 35#8 f.fn g f.pack)
  | .isub f => some (word 36#8 f.fn g f.pack)
  | .imul f => some (word 37#8 f.fn g f.pack)
  | .imulh f => some (word 38#8 f.fn g f.pack)
  | .imad f => some (word 39#8 f.fn g f.pack)
  | .imin f => some (word 42#8 f.fn g f.pack)
  | .imax f => some (word 43#8 f.fn g f.pack)
  | .iabs f => some (word 44#8 f.fn g f.pack)
  | .iaddcAdd f => some (word 40#8 f.fn g f.pack)
  | .iaddcAddc f => some (word 40#8 f.fn g f.pack)
  | .iaddcSub f => some (word 40#8 f.fn g f.pack)
  | .iaddcSubb f => some (word 40#8 f.fn g f.pack)
  | .isetp f => some (word 45#8 f.fn g f.pack)
  | .pset f => some (word 46#8 f.fn g f.pack)
  | .psetNz f => some (word 46#8 f.fn g f.pack)
  | .pmov f => some (word 47#8 f.fn g f.pack)
  | .and f => some (word 48#8 f.fn g f.pack)
  | .or f => some (word 49#8 f.fn g f.pack)
  | .xor f => some (word 50#8 f.fn g f.pack)
  | .andn f => some (word 51#8 f.fn g f.pack)
  | .btab f => some (word 52#8 f.fn g f.pack)
  | .shl f => some (word 53#8 f.fn g f.pack)
  | .shr f => some (word 54#8 f.fn g f.pack)
  | .sar f => some (word 55#8 f.fn g f.pack)
  | .rot f => some (word 56#8 f.fn g f.pack)
  | .bfe f => some (word 57#8 f.fn g f.pack)
  | .bfi f => some (word 58#8 f.fn g f.pack)
  | .popc f => some (word 59#8 f.fn g f.pack)
  | .clz f => some (word 60#8 f.fn g f.pack)
  | .brev f => some (word 61#8 f.fn g f.pack)
  | .bysel f => some (word 68#8 f.fn g f.pack)
  | .shflIdx f => some (word 62#8 f.fn g f.pack)
  | .shflUp f => some (word 62#8 f.fn g f.pack)
  | .shflDown f => some (word 62#8 f.fn g f.pack)
  | .shflXor f => some (word 62#8 f.fn g f.pack)
  | .bcast f => some (word 63#8 f.fn g f.pack)
  | .bcastFirst f => some (word 63#8 f.fn g f.pack)
  | .rdsr f => some (word 64#8 f.fn g f.pack)
  | .wrsr f => some (word 65#8 f.fn g f.pack)
  | .wgrow f => some (word 66#8 f.fn g f.pack)
  | .wshrink f => some (word 67#8 f.fn g f.pack)
  | .fadd f => some (word 80#8 f.fn g f.pack)
  | .fsub f => some (word 81#8 f.fn g f.pack)
  | .fmul f => some (word 82#8 f.fn g f.pack)
  | .ffma f => some (word 83#8 f.fn g f.pack)
  | .fmin f => some (word 84#8 f.fn g f.pack)
  | .fmax f => some (word 85#8 f.fn g f.pack)
  | .fsetp f => some (word 86#8 f.fn g f.pack)
  | .fclass f => some (word 87#8 f.fn g f.pack)
  | .frnd f => some (word 88#8 f.fn g f.pack)
  | .fscale f => some (word 89#8 f.fn g f.pack)
  | .hadd2 f => some (word 90#8 f.fn g f.pack)
  | .hmul2 f => some (word 91#8 f.fn g f.pack)
  | .hfma2 f => some (word 92#8 f.fn g f.pack)
  | .hmnx2Min f => some (word 93#8 f.fn g f.pack)
  | .hmnx2Max f => some (word 93#8 f.fn g f.pack)
  | .dot2 f => some (word 94#8 f.fn g f.pack)
  | .redlAdd f => some (word 95#8 f.fn g f.pack)
  | .redlMax f => some (word 95#8 f.fn g f.pack)
  | .redlMin f => some (word 95#8 f.fn g f.pack)
  | .cvt f => some (word 96#8 f.fn g f.pack)
  | .cvtiF2i f => some (word 97#8 f.fn g f.pack)
  | .cvtiI2f f => some (word 97#8 f.fn g f.pack)
  | .qmx f => some (word 98#8 f.fn g f.pack)
  | .dqmx f => some (word 99#8 f.fn g f.pack)
  | .packH16 f => some (word 100#8 f.fn g f.pack)
  | .packB16 f => some (word 100#8 f.fn g f.pack)
  | .packE4m3 f => some (word 100#8 f.fn g f.pack)
  | .packE5m2 f => some (word 100#8 f.fn g f.pack)
  | .unpack f => some (word 101#8 f.fn g f.pack)
  | .frcp f => some (word 112#8 f.fn g f.pack)
  | .frsq f => some (word 113#8 f.fn g f.pack)
  | .fsqrt f => some (word 114#8 f.fn g f.pack)
  | .fexp2 f => some (word 115#8 f.fn g f.pack)
  | .flog2 f => some (word 116#8 f.fn g f.pack)
  | .ftanh f => some (word 117#8 f.fn g f.pack)
  | .fsigm f => some (word 118#8 f.fn g f.pack)
  | .fsin f => some (word 119#8 f.fn g f.pack)
  | .fcos f => some (word 120#8 f.fn g f.pack)
  | .ferf f => some (word 122#8 f.fn g f.pack)
  | .fexpm f => some (word 121#8 f.fn g f.pack)
  | .lds f => some (word 128#8 f.fn g f.pack)
  | .sts f => some (word 129#8 f.fn g f.pack)
  | .ldsr f => some (word 130#8 f.fn g f.pack)
  | .stsr f => some (word 131#8 f.fn g f.pack)
  | .atoms f => some (word 132#8 f.fn g f.pack)
  | .lda f => some (word 133#8 f.fn g f.pack)
  | .sta f => some (word 134#8 f.fn g f.pack)
  | .zacc f => some (word 135#8 f.fn g f.pack)
  | .zaccRows f => some (word 135#8 f.fn g f.pack)
  | .sfill f => some (word 136#8 f.fn g f.pack)
  | .msign f => some (word 144#8 0#8 g f.pack)
  | .wload f => some (word 145#8 f.fn g f.pack)
  | .tmma f => some (word 146#8 f.fn g f.pack)
  | .adpt f => some (word 147#8 f.fn g f.pack)
  | .tstat f => some (word 148#8 f.fn g f.pack)
  | .tshape f => some (word 149#8 f.fn g f.pack)
  | .rhdr f => some (word 160#8 f.fn g f.pack)
  | .rhdrFlags f => some (word 160#8 f.fn g f.pack)
  | .tkfwd f => some (word 161#8 f.fn g f.pack)
  | .tkfwdId f => some (word 161#8 f.fn g f.pack)
  | .tkpark f => some (word 162#8 f.fn g f.pack)
  | .tkdone f => some (word 163#8 f.fn g f.pack)
  | .tkdoneEnd f => some (word 163#8 f.fn g f.pack)
  | .tkdoneId f => some (word 163#8 f.fn g f.pack)
  | .tkdoneEndId f => some (word 163#8 f.fn g f.pack)
  | .tknew f => some (word 164#8 f.fn g f.pack)
  | .gatek f => some (word 165#8 f.fn g f.pack)
  | .colq f => some (word 166#8 f.fn g f.pack)
  | .opbind f => some (word 170#8 f.fn g f.pack)
  | .opunbind f => some (word 171#8 f.fn g f.pack)
  | .opunbindClose f => some (word 171#8 f.fn g f.pack)
  | .board f => some (word 167#8 f.fn g f.pack)
  | .boardSel f => some (word 167#8 f.fn g f.pack)
  | .boardLeave f => some (word 167#8 f.fn g f.pack)
  | .xpred f => some (word 168#8 f.fn g f.pack)
  | .crstat f => some (word 169#8 f.fn g f.pack)
  | .ridgePause f => some (word 172#8 f.fn g f.pack)
  | .ridgeResume f => some (word 172#8 f.fn g f.pack)
  | .ridgeSync f => some (word 172#8 f.fn g f.pack)
  | .ldg f => some (word 176#8 f.fn g f.pack)
  | .stg f => some (word 177#8 f.fn g f.pack)
  | .stgm f => some (word 178#8 f.fn g f.pack)
  | .prefSlice f => some (word 179#8 f.fn g f.pack)
  | .prefMem f => some (word 179#8 f.fn g f.pack)
  | .fenceAr f => some (word 180#8 f.fn g f.pack)
  | .fenceAcq f => some (word 180#8 f.fn g f.pack)
  | .fenceRel f => some (word 180#8 f.fn g f.pack)
  | .fenceSc f => some (word 180#8 f.fn g f.pack)
  | .tlbq f => some (word 181#8 f.fn g f.pack)
  | .tlbqFill f => some (word 181#8 f.fn g f.pack)
  | .pghintWill f => some (word 182#8 f.fn g f.pack)
  | .pghintDont f => some (word 182#8 f.fn g f.pack)
  | .pghintPin f => some (word 182#8 f.fn g f.pack)
  | .pghintUnpin f => some (word 182#8 f.fn g f.pack)
  | .cctlZero f => some (word 183#8 f.fn g f.pack)
  | .cctlEvict f => some (word 183#8 f.fn g f.pack)
  | .cctlHint f => some (word 183#8 f.fn g f.pack)
  | .waitv f => some (word 184#8 f.fn g f.pack)
  | .atom f => some (word 192#8 f.fn g f.pack)
  | .atomr f => some (word 193#8 f.fn g f.pack)
  | .pacq f => some (word 194#8 f.fn g f.pack)
  | .prel f => some (word 195#8 f.fn g f.pack)
  | .ptry f => some (word 196#8 f.fn g f.pack)
  | .tbegin f => some (word 197#8 0#8 g f.pack)
  | .tend f => some (word 198#8 0#8 g f.pack)
  | .tabort f => some (word 199#8 f.fn g f.pack)
  | .tstate f => some (word 200#8 f.fn g f.pack)
  | .tstateClr f => some (word 200#8 f.fn g f.pack)
  | .acp f => some (word 208#8 f.fn g f.pack)
  | .acps f => some (word 209#8 f.fn g f.pack)
  | .xcopy f => some (word 210#8 f.fn g f.pack)
  | .xmcast f => some (word 211#8 0#8 g f.pack)
  | .xgath f => some (word 212#8 f.fn g f.pack)
  | .xfill f => some (word 213#8 f.fn g f.pack)
  | .xstatCnt f => some (word 214#8 f.fn g f.pack)
  | .xstatErr f => some (word 214#8 f.fn g f.pack)
  | .xstatEng f => some (word 214#8 f.fn g f.pack)
  | .kvmap f => some (word 224#8 f.fn g f.pack)
  | .kvmapInfo f => some (word 224#8 f.fn g f.pack)
  | .kvapp f => some (word 225#8 f.fn g f.pack)
  | .kvfork f => some (word 226#8 f.fn g f.pack)
  | .kvfree f => some (word 227#8 f.fn g f.pack)
  | .kvfreeAll f => some (word 227#8 f.fn g f.pack)
  | .kstore f => some (word 228#8 f.fn g f.pack)
  | .cgath f => some (word 229#8 f.fn g f.pack)
  | .cgathTrap f => some (word 229#8 f.fn g f.pack)
  | .cred f => some (word 230#8 f.fn g f.pack)
  | .credNorm f => some (word 230#8 f.fn g f.pack)
  | .cproj f => some (word 238#8 f.fn g f.pack)
  | .penal f => some (word 231#8 f.fn g f.pack)
  | .cntupd f => some (word 232#8 f.fn g f.pack)
  | .rand f => some (word 233#8 f.fn g f.pack)
  | .randU01 f => some (word 233#8 f.fn g f.pack)
  | .scanb f => some (word 234#8 f.fn g f.pack)
  | .scanbFlush f => some (word 234#8 f.fn g f.pack)
  | .scanbReset f => some (word 234#8 f.fn g f.pack)
  | .scanr f => some (word 235#8 f.fn g f.pack)
  | .seqadm f => some (word 236#8 f.fn g f.pack)
  | .seqadmRel f => some (word 236#8 f.fn g f.pack)
  | .seqadmInfo f => some (word 236#8 f.fn g f.pack)
  | .seqsteal f => some (word 237#8 f.fn g f.pack)
  | .sysc f => some (word 240#8 f.fn g f.pack)
  | .hcall f => some (word 242#8 f.fn g f.pack)
  | .brk f => some (word 249#8 f.fn g f.pack)
  | .rdpr f => some (word 244#8 f.fn g f.pack)
  | .wrpr f => some (word 245#8 f.fn g f.pack)
  | .wrprX f => some (word 245#8 f.fn g f.pack)
  | .tlbinvVa f => some (word 246#8 f.fn g f.pack)
  | .tlbinvAsid f => some (word 246#8 f.fn g f.pack)
  | .tlbinvVmid f => some (word 246#8 f.fn g f.pack)
  | .tlbinvAll f => some (word 246#8 f.fn g f.pack)
  | .ctxsv f => some (word 247#8 f.fn g f.pack)
  | .ctxld f => some (word 248#8 f.fn g f.pack)
  | .replayData f => some (word 250#8 0#8 g f.pack)
  | .haltgStop f => some (word 251#8 0#8 g f.pack)
  | .haltgGo f => some (word 251#8 1#8 g f.pack)
  | .haltgKill f => some (word 251#8 2#8 g f.pack)
  | .haltgQuery f => some (word 251#8 3#8 g f.pack)
  | .svcfgBudget f => some (word 252#8 f.fn g f.pack)
  | .pgdone f => some (word 253#8 f.fn g f.pack)
  | .pgdoneDeny f => some (word 253#8 f.fn g f.pack)
  | .freezeRegion f => some (word 254#8 f.fn g f.pack)
  | .freezeThaw f => some (word 254#8 f.fn g f.pack)
  | .freezeSlot f => some (word 254#8 f.fn g f.pack)
  | .freezeSlotthaw f => some (word 254#8 f.fn g f.pack)
  | .nop => some (word 0#8 0#8 g F3.unused.pack)
  | .exit => some (word 13#8 0#8 g F3.unused.pack)
  | .yield => some (word 14#8 0#8 g F3.unused.pack)
  | .yieldAge => some (word 14#8 1#8 g F3.unused.pack)
  | .wloadRel => some (word 145#8 1#8 g F3.unused.pack)
  | .sret => some (word 241#8 0#8 g F3.unused.pack)
  | .hret => some (word 243#8 0#8 g F3.unused.pack)
  | .replayRetry => some (word 250#8 1#8 g FK.unused.pack)
  | .replayOp => some (word 250#8 2#8 g FK.unused.pack)
  | .svcfgNoidem => some (word 252#8 1#8 g FI.unused.pack)
  | .groupRetire => none
  | .napExpiry => none
  | .barrierRelease => none
  | .issueSelect => none
  | .lineRefetch => none
  | .asyncEventTake => none
  | .sfillComplete => none
  | .spmapWrite => none
  | .accownWrite => none
  | .bankReady => none
  | .landingBufferMove => none
  | .arrayStart => none
  | .arrayOpComplete => none
  | .recordEnterCol => none
  | .colFireTimeout => none
  | .colFireFill => none
  | .dispatchPlace => none
  | .adapterPrefetchWarm => none
  | .tokenPacketArrive => none
  | .tokenPacketAck => none
  | .balancerClone => none
  | .balancerClose => none
  | .mergeRelease => none
  | .stallWatchHang => none
  | .boardTakeEffect => none
  | .passOpen => none
  | .blockReadIssue => none
  | .blockDeliver => none
  | .rideEject => none
  | .waitvRecheck => none
  | .tlbWalkComplete => none
  | .faultRecordWrite => none
  | .memRequestSlotGrant => none
  | .memAccessPerform => none
  | .accessReply => none
  | .replMulticastStore => none
  | .settleSweep => none
  | .tlbinvSwitch => none
  | .svcRequestPerform => none
  | .pacqRetry => none
  | .portalCompletion => none
  | .fallbackPermitGrant => none
  | .txValidateTimer => none
  | .txValidateReply => none
  | .acpTransferComplete => none
  | .enginePiece => none
  | .engineRequestComplete => none
  | .xmcastTargetArrive => none
  | .kvRequestPerform => none
  | .kvCowCopyRead => none
  | .kstorePublish => none
  | .credMerge => none
  | .scanRequestPerform => none
  | .budgetExpire => none
  | .pkgcfgWrite => none
  | .lattolWrite => none
  | .msixdbWrite => none
  | .mgmtRegWrite => none
  | .hostBar2Read => none
  | .hostBar2Write => none
  | .hostAtomicop => none
  | .peerRequest => none
  | .pslPortDown => none
  | .powerStateChange => none
  | .wakeEvent => none
  | .startup => none
  | .firmwareReload => none
  | .frozenRideEject => none
  | .arrayStreamingEnd => none
  | .gatherPortReply => none

/-- Whether a constructor is an event of spec/95, which no word encodes (log 8). -/
def Instr.isEvent (i : Instr) : Bool := (encode ⟨false, 15⟩ i).isNone

/-- The unit classes of R67. -/
inductive UnitClass
  | ctl | int | vfp | fnu | spd | mtx | tok | mem | svc | cpy | kvs | prv
deriving DecidableEq, Repr

/-- The unit class of a word's opcode (R67); none for the unassigned opcodes of R68. -/
def unitClass (w : BitVec 96) : Option UnitClass :=
  let op := (w.extractLsb' 88 8).toNat
  if op ≤ 0x14 then some .ctl
  else if 0x20 ≤ op ∧ op ≤ 0x44 then some .int
  else if 0x50 ≤ op ∧ op ≤ 0x65 then some .vfp
  else if 0x70 ≤ op ∧ op ≤ 0x7A then some .fnu
  else if 0x80 ≤ op ∧ op ≤ 0x88 then some .spd
  else if 0x90 ≤ op ∧ op ≤ 0x95 then some .mtx
  else if 0xA0 ≤ op ∧ op ≤ 0xAC then some .tok
  else if 0xB0 ≤ op ∧ op ≤ 0xB8 then some .mem
  else if 0xC0 ≤ op ∧ op ≤ 0xC8 then some .svc
  else if 0xD0 ≤ op ∧ op ≤ 0xD6 then some .cpy
  else if 0xE0 ≤ op ∧ op ≤ 0xEE then some .kvs
  else if 0xF0 ≤ op ∧ op ≤ 0xFE then some .prv
  else none

/-- The instruction the decoder reads from an instruction whose bits are `w`, numbered from the least significant bit
of the first byte (R3, R48: an instruction slot is twelve bytes, little-endian); bits above `nbits` are zero. -/
def decodeTableWord (nbits w : Nat) : Option Instr :=
  match decode (BitVec.ofNat 96 (w % 2 ^ min nbits 96)) with
  | .ok (_, i) => some i
  | .error _ => none

end Sys2Proof
end

