-- ==== Sys2Proof/Machine/Num.lean ====
section
/-!
DEFINITION. Number formats and exact arithmetic (spec/02): values as exact dyadic numbers, one rounding per format with
its overflow rule and flags (R34 to R36), conversions (R37), blocks (R38, R39) and flush to zero (R40, R41).
-/
namespace Sys2Proof.Machine

/-- The five sticky flags of R36. -/
structure Flags where
  nv : Bool
  dz : Bool
  of : Bool
  uf : Bool
  nx : Bool
deriving DecidableEq, Repr

/-- No flag. -/
def Flags.none : Flags := ⟨false, false, false, false, false⟩
/-- Invalid alone. -/
def Flags.invalid : Flags := ⟨true, false, false, false, false⟩
/-- Divide by zero alone. -/
def Flags.divZero : Flags := ⟨false, true, false, false, false⟩
/-- Overflow, together with inexact (R36). -/
def Flags.overflow : Flags := ⟨false, false, true, false, true⟩
/-- Underflow, together with inexact: a flushed result (R36). -/
def Flags.flushed : Flags := ⟨false, false, false, true, true⟩
/-- Inexact alone. -/
def Flags.inexact : Flags := ⟨false, false, false, false, true⟩

/-- The union of two sets of flags. -/
def Flags.or (a b : Flags) : Flags :=
  ⟨a.nv || b.nv, a.dz || b.dz, a.of || b.of, a.uf || b.uf, a.nx || b.nx⟩

/-- The layout of FPSTAT (R135). -/
def Flags.toWord (f : Flags) : Word :=
  BitVec.ofNat 32 (f.nv.toNat * 16 + f.dz.toNat * 8 + f.of.toNat * 4 + f.uf.toNat * 2 + f.nx.toNat)

/-- An exact extended value: NaN, an infinity, or (−1)^neg · m · 2^e. -/
inductive Num
  | nan
  | inf (neg : Bool)
  | fin (neg : Bool) (m : Nat) (e : Int)
deriving DecidableEq, Repr

/-- A floating-point format (R20, R24): mantissa width, exponent of the least subnormal, the place of the sign bit, the
code of the largest finite magnitude, the code of infinity where there is one, the canonical NaN where there is one, and
whether overflow saturates (R35). A magnitude's code is its exponent and mantissa fields. -/
structure Fmt where
  mb : Nat
  q0 : Int
  sign : Nat
  maxCode : Nat
  infCode : Option Nat
  nanCode : Option Nat
  sat : Bool
deriving DecidableEq, Repr

def fp32 : Fmt := ⟨23, -149, 31, 0x7F7FFFFF, some 0x7F800000, some 0x7FC00000, false⟩
def fp16 : Fmt := ⟨10, -24, 15, 0x7BFF, some 0x7C00, some 0x7E00, false⟩
def bf16 : Fmt := ⟨7, -133, 15, 0x7F7F, some 0x7F80, some 0x7FC0, false⟩
def e4m3 : Fmt := ⟨3, -9, 7, 0x7E, none, some 0x7F, true⟩
def e5m2 : Fmt := ⟨2, -16, 7, 0x7B, some 0x7C, some 0x7F, true⟩
def e3m2 : Fmt := ⟨2, -4, 5, 0x1F, none, none, true⟩
def e2m3 : Fmt := ⟨3, -3, 5, 0x1F, none, none, true⟩
def e2m1 : Fmt := ⟨1, -1, 3, 0x7, none, none, true⟩

/-- The value of a code (R20, R21, R24). -/
def Fmt.value (f : Fmt) (code : Nat) : Num :=
  let neg := code.testBit f.sign
  let c := code % 2 ^ f.sign
  if f.infCode = some c then .inf neg
  else if c > f.maxCode then .nan
  else if c / 2 ^ f.mb = 0 then .fin neg (c % 2 ^ f.mb) f.q0
  else .fin neg (2 ^ f.mb + c % 2 ^ f.mb) (f.q0 + (c / 2 ^ f.mb : Nat) - 1)

/-- A magnitude m·2^e, increased by less than 2^e where `sticky`, rounded to a multiple of 2^q under a mode; with the
multiple, whether the result differs from the exact value. -/
def roundAt (rm : Rm) (neg : Bool) (m : Nat) (e : Int) (sticky : Bool) (q : Int) : Nat × Bool :=
  let s := q - e
  if s ≤ 0 then
    -- every bit of m lies at or above 2^q
    let n := m * 2 ^ (-s).toNat
    let up := match rm with
      | .rne => false | .rz => false | .ru => sticky && !neg | .rd => sticky && neg
    (if up then n + 1 else n, sticky)
  else
    let k := s.toNat
    let far := decide (k > m.log2 + 2)
    let n := if far then 0 else m / 2 ^ k
    let rem := if far then m else m % 2 ^ k
    let half := if far then false else decide (2 ^ (k - 1) ≤ rem)
    let rest := if far then decide (m ≠ 0) || sticky else decide (rem % 2 ^ (k - 1) ≠ 0) || sticky
    let inexact := half || rest
    let up := match rm with
      | .rne => half && (rest || n % 2 == 1)
      | .rz => false
      | .ru => inexact && !neg
      | .rd => inexact && neg
    (if up then n + 1 else n, inexact)

/-- Rounding of a nonzero or zero exact magnitude to a format (R34, R35, R36): the code, and the flags. -/
def Fmt.roundMag (f : Fmt) (rm : Rm) (neg : Bool) (m : Nat) (e : Int) (sticky : Bool) : Nat × Flags :=
  let signed (c : Nat) : Nat := c + neg.toNat * 2 ^ f.sign
  let top : Int := e + m.log2
  let emax : Int := f.q0 + f.maxCode / 2 ^ f.mb + 2
  let overflow : Nat × Flags :=
    (signed (match f.infCode, f.sat, rm, neg with
      | some i, false, .rne, _ => i
      | some i, false, .ru, false => i
      | some i, false, .rd, true => i
      | _, _, _, _ => f.maxCode), .overflow)
  if m ≠ 0 ∧ top > emax + f.mb then overflow
  else
    let q := if m ≠ 0 ∧ top - f.mb > f.q0 then top - f.mb else f.q0
    let (n, inexact) := roundAt rm neg m e sticky q
    let code := (q - f.q0).toNat * 2 ^ f.mb + n
    if code > f.maxCode then overflow
    else (signed code, { Flags.none with nx := inexact, uf := inexact && decide (code < 2 ^ f.mb) })

/-- The canonical NaN of a format (R20); the formats without one deliver +0 (R37). -/
def Fmt.canon (f : Fmt) : Nat := f.nanCode.getD 0

/-- Conversion of a value to a format (R34 to R37). A NaN raises NV; an infinity raises NV where the format has none. -/
def Fmt.convert (f : Fmt) (rm : Rm) (x : Num) : Nat × Flags :=
  match x with
  | .nan => (f.canon, .invalid)
  | .inf neg =>
    match f.infCode, f.nanCode with
    | some i, _ => (i + neg.toNat * 2 ^ f.sign, .none)
    | none, some n => (n + neg.toNat * 2 ^ f.sign, .invalid)
    | none, none => (f.maxCode + neg.toNat * 2 ^ f.sign, .invalid)
  | .fin neg m e => f.roundMag rm neg m e false

/-- The value of an MXINT8 element (R30). -/
def mxint8Value (code : Nat) : Num :=
  let q := code % 256
  if q < 128 then .fin false q (-6) else .fin true (256 - q) (-6)

/-- Conversion to MXINT8 (R30, R35, R36, R37): q from −127 to 127. -/
def mxint8Convert (rm : Rm) (x : Num) : Nat × Flags :=
  let code (neg : Bool) (q : Nat) : Nat := if neg && q != 0 then 256 - q else q
  match x with
  | .nan => (0, .invalid)
  | .inf neg => (code neg 127, .invalid)
  | .fin neg m e =>
    if m ≠ 0 ∧ e + m.log2 > 8 then (code neg 127, .overflow)
    else
      let (n, inexact) := roundAt rm neg m e false (-6)
      if n > 127 then (code neg 127, .overflow)
      else (code neg n, { Flags.none with nx := inexact, uf := inexact && n == 0 })

/-- Whether a value is nonzero and below the least normal of FP32 in magnitude (R40, R41). -/
def Num.subnormal32 : Num → Bool
  | .fin _ m e => decide (m ≠ 0) && decide (e + m.log2 < -126)
  | _ => false

/-- Flush of an operand (R40): no flag. -/
def flushIn (ftz : Bool) (x : Num) : Num :=
  match x with
  | .fin neg _ _ => if ftz && x.subnormal32 then .fin neg 0 0 else x
  | _ => x

/-- Flush of a delivered result held as a code of a format (R40). -/
def flushOut (ftz : Bool) (f : Fmt) (r : Nat × Flags) : Nat × Flags :=
  if ftz && (f.value r.1).subnormal32 then (if r.1.testBit f.sign then 2 ^ f.sign else 0, r.2.or .flushed) else r

/-- Whether a value is negative, counting −0. -/
def Num.isNeg : Num → Bool
  | .fin neg _ _ => neg
  | .inf neg => neg
  | .nan => false

/-- The negative of a value. -/
def Num.neg : Num → Num
  | .fin neg m e => .fin (!neg) m e
  | .inf neg => .inf (!neg)
  | .nan => .nan

/-- Whether a value is a zero. -/
def Num.isZero : Num → Bool
  | .fin _ m _ => m == 0
  | _ => false

/-- The exact product (R138, R43): NaN for 0 × ∞; the sign of a zero or infinite product is the XOR of the signs. -/
def Num.mul (x y : Num) : Num :=
  match x, y with
  | .nan, _ => .nan
  | _, .nan => .nan
  | .inf a, .inf b => .inf (a != b)
  | .inf a, .fin b m _ => if m = 0 then .nan else .inf (a != b)
  | .fin a m _, .inf b => if m = 0 then .nan else .inf (a != b)
  | .fin a m e, .fin b n k => .fin (a != b) (m * n) (e + k)

/-- Multiplication by a power of two, exact. -/
def Num.scale (x : Num) (n : Int) : Num :=
  match x with
  | .fin s m e => .fin s m (e + n)
  | y => y

/-- The finite value as an integer multiple of 2^k, for k at most its exponent. -/
def Num.toInt (x : Num) (k : Int) : Int :=
  match x with
  | .fin neg m e => let v : Int := m * 2 ^ (e - k).toNat; if neg then -v else v
  | _ => 0

/-- The least exponent of the finite values of a list. -/
def minExp : List Num → Int → Int
  | [], k => k
  | .fin _ m e :: r, k => minExp r (if m ≠ 0 ∧ e < k then e else k)
  | _ :: r, k => minExp r k

/-- The sum of the finite values of a list, as a multiple of 2^k. -/
def sumAt (k : Int) : List Num → Int
  | [] => 0
  | x :: r => x.toInt k + sumAt k r

/-- The exact sum of values (R138, R42, R43): NaN when a value is NaN or infinities of both signs meet. An exact zero sum
is +0, or −0 under RD, except that a sum of zeros of one sign keeps it. -/
def sumNum (rm : Rm) (xs : List Num) : Num :=
  if xs.any (fun x => decide (x = .nan)) then .nan
  else
    let pos := xs.any (fun x => decide (x = .inf false))
    let neg := xs.any (fun x => decide (x = .inf true))
    if pos && neg then .nan
    else if pos then .inf false
    else if neg then .inf true
    else
      let k := minExp xs 4096
      let v := sumAt k (xs.filter (fun x => !x.isZero))
      if v = 0 then
        if xs.all (fun x => x.isZero && x.isNeg) && !xs.isEmpty then .fin true 0 0
        else if xs.all (fun x => x.isZero && !x.isNeg) then .fin false 0 0
        else .fin (decide (rm = .rd)) 0 0
      else .fin (decide (v < 0)) v.natAbs k

/-- An exact result delivered in a wide format: a NaN raises NV (R21, R138). -/
def deliver (ftz : Bool) (f : Fmt) (rm : Rm) (x : Num) : Nat × Flags := flushOut ftz f (f.convert rm x)

/-- Comparison of two values that are not NaN, with −0 equal to +0. -/
def Num.cmp (x y : Num) : Ordering :=
  match x, y with
  | .inf a, .inf b => if a = b then .eq else if a then .lt else .gt
  | .inf a, _ => if a then .lt else .gt
  | _, .inf b => if b then .gt else .lt
  | x, y =>
    let k := minExp [x, y] 4096
    compare (x.toInt k) (y.toInt k)

/-- The lesser of two values that are not NaN, with −0 below +0 (R139). -/
def Num.minNum (x y : Num) : Num :=
  match x.cmp y with
  | .lt => x
  | .gt => y
  | .eq => if x.isNeg then x else y

/-- The greater of two values that are not NaN, with −0 below +0 (R139). -/
def Num.maxNum (x y : Num) : Num :=
  match x.cmp y with
  | .lt => y
  | .gt => x
  | .eq => if x.isNeg then y else x

/-- Rounding of a value to a whole number (R34): sign, magnitude, and whether a fraction was discarded. -/
def roundInt (rm : Rm) (neg : Bool) (m : Nat) (e : Int) : Nat × Bool := roundAt rm neg m e false 0

/-- Conversion to an integer of `w` bits (R37): the bits, and the flags. -/
def toInteger (w : Nat) (signed : Bool) (rm : Rm) (x : Num) : Nat × Flags :=
  let hi := if signed then 2 ^ (w - 1) - 1 else 2 ^ w - 1
  let loMag := if signed then 2 ^ (w - 1) else 0
  let bound (neg : Bool) : Nat := if neg then (2 ^ w - loMag) % 2 ^ w else hi
  match x with
  | .nan => (0, .invalid)
  | .inf neg => (bound neg, .invalid)
  | .fin neg m e =>
    if m ≠ 0 ∧ e + m.log2 > 70 then (bound neg, .invalid)
    else
      let (n, inexact) := roundInt rm neg m e
      if n > (if neg then loMag else hi) then (bound neg, .invalid)
      else ((if neg then (2 ^ w - n) % 2 ^ w else n), { Flags.none with nx := inexact })

/-- The element formats of R66, codes 0 to 7: their width in bits. -/
def elemBits : Nat → Nat
  | 0 => 16 | 1 => 16 | 2 => 8 | 3 => 8 | 4 => 6 | 5 => 6 | 6 => 4 | _ => 8

/-- The floating-point format of an element-format code (R66); MXINT8 (code 7) is not one. -/
def elemFmt : Nat → Option Fmt
  | 0 => some bf16 | 1 => some fp16 | 2 => some e4m3 | 3 => some e5m2
  | 4 => some e3m2 | 5 => some e2m3 | 6 => some e2m1 | _ => none

/-- The value of an element code of an element format (R24, R30, R66). -/
def elemValue (fmt code : Nat) : Num :=
  match elemFmt fmt with
  | some f => f.value code
  | none => mxint8Value code

/-- Conversion to an element format (R37, R66). -/
def elemConvert (fmt : Nat) (rm : Rm) (x : Num) : Nat × Flags :=
  match elemFmt fmt with
  | some f => f.convert rm x
  | none => mxint8Convert rm x

/-- The exponent of the largest normal value (R38). -/
def elemEmax : Nat → Int
  | 2 => 8 | 3 => 15 | 4 => 4 | 5 => 2 | 6 => 2 | _ => 0

/-- Quantising values to a block (R38): scale, element codes, flags. The values have passed the input flush. -/
def quantise (fmt : Nat) (rm : Rm) (xs : List Num) : Nat × List Nat × Flags :=
  if xs.any (fun x => match x with | .fin _ _ _ => false | _ => true) then (0xFF, xs.map (fun _ => 0), .invalid)
  else
    let tops := xs.filterMap (fun x => match x with
      | .fin _ m e => if m = 0 then none else some (e + (m.log2 : Int))
      | _ => none)
    match tops with
    | [] => (0, xs.map (fun x => (elemConvert fmt rm x).1), .none)
    | t :: ts =>
      let top := ts.foldl max t
      let e := min (max (top - elemEmax fmt) (-127)) 127
      let rs := xs.map (fun x => elemConvert fmt rm (x.scale (-e)))
      ((e + 127).toNat, rs.map Prod.fst, rs.foldl (fun a r => a.or r.2) .none)

/-- The scaled value of an element (R32): scale 0xFF makes it NaN. -/
def scaledValue (fmt scale code : Nat) : Num :=
  if scale = 0xFF then .nan else (elemValue fmt code).scale ((scale : Int) - 127)

/-- Number of bytes of a block (R33). -/
def blockBytes (fmt : Nat) : Nat := 4 * elemBits fmt

/-- The elements of a block of 32 as one little-endian number (R33): element i occupies the bits from its width times i. -/
def packElems (bits : Nat) : List Nat → Nat
  | [] => 0
  | c :: r => c % 2 ^ bits + 2 ^ bits * packElems bits r

/-- Element i of a little-endian run of elements (R33). -/
def elemAt (bits image i : Nat) : Nat := image / 2 ^ (bits * i) % 2 ^ bits

end Sys2Proof.Machine
end

