-- ==== Sys2Proof/Config.lean ====
section
/-!
DEFINITION. What an implementation fixes and the free values of the spec (log 2). Every constant here is opaque: no proof
can see what it is, and a claim holds whatever it is. The counter that feeds them stands in the state.
-/
namespace Sys2Proof.Config

/-- Which entry of a full translation buffer, or of a full set of one, leaves (R273 gives no rule), by the counter. -/
opaque tlbVictim : Nat → Nat

/-- Which of the 256 sets of a last-level translation buffer an entry lies in (R273 gives no rule), by page number. -/
opaque tlbSet : Nat → Nat

/-- Which of the 1,024 sets of its slice a line lies in (R265 gives no rule), by line number. -/
opaque sliceSet : Nat → Nat

/-- Which line of a full base-die cache leaves (R266 gives no rule), by the counter. -/
opaque baseVictim : Nat → Nat

/-- How many clk beyond d a NAP lasts, of the 0 to 64 that R103 allows, by the counter. -/
opaque napExtra : Nat → Nat

/-- Whose count a barrier takes where lanes of the first arriving group name different ones (R92 gives no rule). -/
opaque barrierLane : Nat → Nat

/-- The words of the boot journal, whose entries R448 gives no layout, by the starts since it was cleared and the word's place. -/
opaque journalWord : Nat → Nat → BitVec 64

/-- Which record id a new record takes first (R206 says only that it is free), by the counter. -/
opaque recordStart : Nat → Nat

/-- What RHDR reads of a pad row in the fields for which R217 gives nothing, by the counter and the lane. -/
opaque padField : Nat → Nat → BitVec 64

/-- The clk since an operator that has never fired last fired (R231 gives none), by the counter and the slot. -/
opaque sinceFired : Nat → Nat → BitVec 32

/-- The virtual address in the checkpoint-log entry of a commit, which names none of its own (R432), by the counter. -/
opaque commitAddress : Nat → Nat

/-- What a reader that has no lane to tell makes of uncorrectable bytes (R444 names no handling for a table walk, the scanner's tables or
a port), by the counter and the address. -/
opaque badData : Nat → Nat → Nat

end Sys2Proof.Config
end

