-- ==== Sys2Proof/Machine/Data.lean ====
section
/-!
DEFINITION. Plain data structures of the state: sorted association lists in one canonical form, and small helpers on
lists of bits. No rule of the spec is coded here.
-/
namespace Sys2Proof.Machine

/-- Values by number, keys strictly rising. -/
abbrev Map (α : Type) := List (Nat × α)

/-- The value at a key. -/
def Map.find? {α : Type} (m : Map α) (k : Nat) : Option α :=
  match m with
  | [] => none
  | (j, a) :: r => if j = k then some a else Map.find? r k

/-- The map with a value at a key. -/
def Map.put {α : Type} (m : Map α) (k : Nat) (a : α) : Map α :=
  match m with
  | [] => [(k, a)]
  | (j, b) :: r => if k < j then (k, a) :: (j, b) :: r else if k = j then (k, a) :: r else (j, b) :: Map.put r k a

/-- The map without a key. -/
def Map.erase {α : Type} (m : Map α) (k : Nat) : Map α := m.filter (fun e => e.1 != k)

/-- Keys strictly rising, from a bound on. -/
def keysRise {α : Type} (lo : Nat) : Map α → Bool
  | [] => true
  | (k, _) :: r => decide (lo ≤ k) && keysRise (k + 1) r

/-- The canonical form of a map of bit vectors: keys strictly rising, no entry zero. An unlisted key reads as zero. -/
def sparseWf {w : Nat} (lo : Nat) : Map (BitVec w) → Bool
  | [] => true
  | (k, v) :: r => decide (lo ≤ k) && v != 0#w && sparseWf (k + 1) r

/-- The value at a key; an unlisted key reads as zero. -/
def sget {w : Nat} (m : Map (BitVec w)) (k : Nat) : BitVec w :=
  match m with
  | [] => 0#w
  | (j, a) :: r => if j = k then a else sget r k

/-- The map with a value at a key, in canonical form: a zero is not listed. -/
def sput {w : Nat} (m : Map (BitVec w)) (k : Nat) (a : BitVec w) : Map (BitVec w) :=
  if a = 0#w then m.erase k else m.put k a

/-- The canonical form of main memory: addresses strictly rising, no zero byte listed. -/
abbrev Memory.wf (m : List (Nat × BitVec 8)) : Bool := sparseWf 0 m

/-- n bytes at an address, the byte at the lowest address least significant (R3). -/
def getBytes (m : Map Byte) (a : Nat) : Nat → Nat
  | 0 => 0
  | n + 1 => (sget m a).toNat + 256 * getBytes m (a + 1) n

/-- n bytes of a value stored at an address, the least significant byte at the lowest address (R3). -/
def putBytes (m : Map Byte) (a : Nat) : Nat → Nat → Map Byte
  | 0, _ => m
  | n + 1, v => putBytes (sput m a (BitVec.ofNat 8 v)) (a + 1) n (v / 256)

/-- Those of n bytes of a value whose mask bit is set, stored at an address. -/
def putMasked (m : Map Byte) (a : Nat) : Nat → Nat → Nat → Map Byte
  | 0, _, _ => m
  | n + 1, v, mask =>
    putMasked (if mask % 2 = 1 then sput m a (BitVec.ofNat 8 v) else m) (a + 1) n (v / 256) (mask / 2)

/-- The part of a map outside n keys from `a` on. -/
def dropRange {α : Type} (m : Map α) (a n : Nat) : Map α := m.filter (fun e => decide (e.1 < a ∨ a + n ≤ e.1))

/-- The part of a map at n keys from `a` on. -/
def takeRange {α : Type} (m : Map α) (a n : Nat) : Map α := m.filter (fun e => decide (a ≤ e.1 ∧ e.1 < a + n))

/-- Bits [hi:lo] of a number (R6). -/
def bits (v hi lo : Nat) : Nat := v / 2 ^ lo % 2 ^ (hi + 1 - lo)

/-- Bit i of a number. -/
def bit (v i : Nat) : Bool := v.testBit i

/-- Bits [hi:lo] of a number replaced (R6). -/
def setBits (v hi lo x : Nat) : Nat :=
  v % 2 ^ lo + 2 ^ lo * (x % 2 ^ (hi + 1 - lo)) + 2 ^ (hi + 1) * (v / 2 ^ (hi + 1))

/-- The low n bits of a number, sign-extended (R6). -/
def sextInt (v n : Nat) : Int := if (v % 2 ^ n).testBit (n - 1) then (v % 2 ^ n : Int) - 2 ^ n else (v % 2 ^ n : Int)

/-- An integer modulo 2^n. -/
def wrap (n : Nat) (v : Int) : Nat := (v % (2 ^ n : Int)).toNat

/-- The elements of a list with their positions changed by a function. -/
def mapIdxFrom {α β : Type} (f : Nat → α → β) (i : Nat) : List α → List β
  | [] => []
  | a :: r => f i a :: mapIdxFrom f (i + 1) r

/-- One element of a list replaced. -/
def setAt {α : Type} (l : List α) (i : Nat) (a : α) : List α :=
  match l, i with
  | [], _ => []
  | _ :: r, 0 => a :: r
  | b :: r, i + 1 => b :: setAt r i a

/-- The number with the bits of a list of positions. -/
def maskOf (l : List Nat) : Nat := l.foldl (fun m i => m ||| 2 ^ i) 0

/-- The lanes 0 to 31 named by a mask, ascending. -/
def lanesOf (m : Nat) : List Nat := (List.range 32).filter (fun i => m.testBit i)

end Sys2Proof.Machine
end

