-- ==== Sys2Proof/Machine/Types.lean ====
section
/-!
DEFINITION. The records of the state that belong to fibres, groups, accesses and cores (spec/04 to 07, 11 to 13, 17).
Numbers that the spec never adds, shifts or masks as words of a register are natural numbers; clocks are 40-bit values
held as natural numbers below 2^40 (R294, R308).
-/
namespace Sys2Proof.Machine

/-- The privilege modes (R407). -/
inductive Mode
  | u | s | h
deriving DecidableEq, Repr

/-- One entry of a trap stack (R408). -/
structure TrapEntry where
  tpc : Pc
  /-- The mode to return to, as TCAUSE.PMODE holds it: 3 acts as 2 (R418). -/
  pmode : BitVec 2
  tpred : BitVec 16
  kind : Nat
  cause : Nat
  tval : Nat
  tinfo : Nat
  /-- The parked access that a trap of kind 18 or 19 is about (R309, R422). -/
  access : Option Nat
deriving DecidableEq, Repr

/-- Why a lane is halted (R423). -/
inductive HaltReason
  | stop | overflow | vector | ckptstop
deriving DecidableEq, Repr

/-- An asynchronous event pending for a lane (R412). -/
structure Pending where
  kind : Nat
  cause : Nat
  tval : Nat
  tinfo : Nat
  access : Option Nat
  /-- The trap PC, where it is not the lane's PC when the event is taken: a deadlocked lane's WAITM (R89, R409). -/
  pc : Option Pc
deriving DecidableEq, Repr

/-- One sector of a transaction's read or write log (R332). -/
structure LogSector where
  pa : Nat
  /-- The virtual address of the lowest byte accessed in it. -/
  va : Nat
  /-- The 32 bytes, little-endian. -/
  bytes : Nat
  /-- The bytes written; all of them in a read log. -/
  mask : Nat
deriving DecidableEq, Repr

/-- A lane's transaction state (R331 to R340). -/
structure Tx where
  active : Bool
  irrev : Bool
  depth : Nat
  count : Nat
  wide : Bool
  deny : Bool
  ucode : Nat
  trapk : Nat
  code : Nat
  lastPc : Option Pc
  target : Pc
  dest : Operand
  reads : List LogSector
  writes : List LogSector
  /-- Sectors locked by an irrevocable run, and the cluster whose fallback permit it holds (R337). -/
  locks : List Nat
  permit : Option Nat
  /-- The clk of TBEGIN or of the last timed validation (R334). -/
  since : Nat
  /-- A validation in flight and whether it will fail (R334). -/
  validating : Option Bool
  /-- An FLT abort that waits for PGDONE (R333). -/
  faulted : Bool
deriving DecidableEq, Repr

/-- What holds a lane (R82, R275, R329). -/
inductive Wait
  | none
  /-- WAITM on an enrolled mask. -/
  | waitm (k : Nat)
  /-- AWAIT of a phase of the word at a scratchpad address of the core; the destination receives the new phase. -/
  | await (word phase : Nat) (d : Operand)
  /-- CBAR: the id, the count named, and the phase in which the lane waits. -/
  | cbar (id count phase : Nat)
  /-- KBAR, with the id of the cluster reduction unit. -/
  | kbar (id count phase : Nat)
  /-- CRED, with the id of the cluster reduction unit, the count and phase of the arrival, and what it names: control word,
  destination and partial addresses, c, and whether it is the .NORM form (R378). -/
  | cred (id count phase ctl dest addr c : Nat) (norm : Bool)
  /-- NAP until a value of clk. -/
  | nap (until_ : Nat)
  /-- A read of copy tags whose counts are not all zero; the instruction issues again. -/
  | tag (k : Nat)
  /-- PACQ queued at the owner; the number is the access's. -/
  | permit (req : Nat)
  /-- WAITV; the number is the access's. -/
  | waitv (req : Nat)
  /-- The fallback permit of the core's cluster (R331). -/
  | fallback
  /-- Stalled until a unit replies; the number is the request's. -/
  | reply (req : Nat)
  /-- A fetch that failed to translate (R275): the page's address. -/
  | fetch (va : Nat)
deriving DecidableEq, Repr

/-- What a lane that issues a decode service again still owes (R62, R128, R130, R389): its destination of so many registers, and whether the
instruction merges flags. Where a lower lane of the instruction gives an S register its value, the destination is NONE. -/
structure Again where
  dest : Operand
  regs : Nat
  flags : Bool
deriving DecidableEq, Repr

/-- One lane of a group (R74). -/
structure Lane where
  live : Bool
  pc : Pc
  mode : Mode
  pred : BitVec 16
  /-- The trap stack, top first (R408). -/
  traps : List TrapEntry
  /-- XS0 to XS3 of the S bank and of the H bank (R418). -/
  xs : Map Long
  xh : Map Long
  /-- Clock, horizon and read horizon (R294). -/
  c : Nat
  h : Nat
  p : Nat
  tx : Tx
  wait : Wait
  halted : Option HaltReason
  pend : List Pending
  /-- An armed budget: clk of U mode left (R427). -/
  budget : Option Nat
  /-- A checked transfer whose target is checked at the first issue (R50: SPAWN, dispatch). -/
  startCheck : Bool
  /-- The instruction that it issues again after the pager's answer (R389). -/
  again : Option Again
deriving DecidableEq, Repr

/-- The block of a ride that an operation multiplies by: its pass, its opening once that is known, its place (R189, R249). -/
structure RideRef where
  op : Nat
  expert : Nat
  /-- The number of the binding that the operator has had since its OPBIND (log 1). -/
  bind : Nat
  opening : Option Nat
  place : Nat
deriving DecidableEq, Repr

/-- A matrix operation (R182 to R201), from its issue to its completion. -/
structure MatOp where
  id : Nat
  gid : Nat
  /-- The group's uid and context slot. -/
  owner : Nat
  slot : Nat
  /-- ADPT's K and N; none for TMMA. -/
  adpt : Option (Nat × Nat)
  height : Nat
  acc : Nat
  fmta : Nat
  /-- The first V register of a register source; none for a scratchpad source (R186). -/
  daReg : Option Nat
  /-- The scratchpad descriptors of DA and DB (R162). -/
  daDesc : Nat × Nat
  db : Option (Nat × Nat)
  /-- The stage words of the epilogue chain (R194). -/
  chain : List Nat
  tag : Option Nat
  mask : Nat
  /-- The highest C among the lanes that signed, if any did (R183). -/
  stamp : Option Nat
  ftz : Bool
  /-- The private bank, or the ride block (R189). -/
  bank : Option Nat
  ride : Option RideRef
  /-- Completed slices and stages (R190), the working values of the epilogue, key 128·row + column, and the flags so far. -/
  slices : Nat
  stages : Nat
  work : Map Word
  flags : Nat
  running : Bool
  streamed : Bool
  /-- The adapter block of an ADPT as its start has read it (R201). -/
  buffer : Option (Map Byte)
  /-- It has been interrupted at a step boundary and has not resumed (R190). -/
  cut : Bool
deriving DecidableEq, Repr

/-- A mask register (R87) with its signature set and pending operation (R182). -/
structure MaskReg where
  enrol : Nat
  arr : Nat
  /-- The clock that each lane released at its last arrival, by lane (R87). -/
  stamps : Map Nat
  sig : Nat
  /-- The highest C among the signing lanes (R183). -/
  sigStamp : Nat
  pending : Option MatOp
deriving DecidableEq, Repr

/-- A copy tag (R345, R353). -/
structure Tag where
  count : Nat
  /-- The highest stamp among the transfers that ended since the count was last raised from zero (R313). -/
  stamp : Option Nat
  err : Nat
deriving DecidableEq, Repr

/-- A boarded pass (R248, R249). -/
structure Ride where
  op : Nat
  expert : Nat
  bind : Nat
  pin : Bool
  /-- The opening joined at its cut. -/
  opening : Option Nat
  /-- The next place to be taken, and the number of places. -/
  place : Nat
  places : Nat
deriving DecidableEq, Repr

/-- A BOARD on its way to its effect (R248, R257): what it does, when, and where its code goes. -/
structure Boarding where
  leave : Bool
  op : Nat
  expert : Nat
  due : Nat
  dest : Operand
  lanes : Nat
deriving DecidableEq, Repr

/-- A row of a group's tile (R216, R222 to R224). -/
inductive TileRow
  /-- A pad row, or a row that TKPARK has parked. -/
  | pad
  /-- A row held, with its record's index on the die. -/
  | held (rec : Nat)
  /-- A row that TKFWD or TKDONE has disposed of. -/
  | gone (rec : Nat)
deriving DecidableEq, Repr

/-- A group (R75 to R77, R106 to R112). -/
structure Group where
  gid : Nat
  slot : Nat
  pipe : Nat
  stamp : Nat
  /-- Model's own: a name that no other group ever has (log 1); it stays when YIELD.AGE changes the stamp. -/
  uid : Nat
  /-- Granule numbers in list order (R106). -/
  window : List Nat
  /-- V registers: key 32·n + lane; an unlisted word is zero (R107). -/
  v : Map Word
  /-- V words whose parity fails (R444). -/
  badV : List Nat
  /-- S registers (R110). -/
  s : Map Long
  lanes : List Lane
  masks : List MaskReg
  opid : Nat
  tenant : Nat
  rows : Nat
  tileh : Nat
  /-- The tile's rows, and the tag they share (R208). -/
  tile : List TileRow
  tileTag : Nat
  /-- The clk in which the tile fired, and the number of its firing on the die (R216, R425). -/
  tileFired : Nat
  tileOrder : Nat
  fpctl : Nat
  fpstat : Nat
  tags : List Tag
  /-- Leader of the current set, and its turn count (R83). -/
  current : Nat
  turn : Nat
  idem : Bool
  /-- Instructions issued since creation, modulo 2^32 (R277). -/
  seqno : Nat
  ride : Option Ride
  boardings : List Boarding
  /-- Left by ejection or CTXSV since the last boarding (R249, R259). -/
  eject : Bool
  /-- The operations that an uncorrectable word has ended at a step boundary and that REPLAY.OP has not resumed (R192), the first that
  did so at the head. -/
  step : List MatOp
  /-- Frozen by FREEZE.SLOT or FREEZE.REGION (R429), with the clk of the freeze. -/
  frozenSlot : Option Nat
  frozenRegion : Option Nat
  /-- The group that spawned this one, by uid (R425). -/
  parent : Option Nat
  /-- The clk of the group's last issue on its pipeline (R85). -/
  lastIssue : Option Nat
  /-- Model's own: lanes that were found unable to issue since the last event (log 1). -/
  skip : Nat
deriving DecidableEq, Repr

/-- What an access does (R287, R291, R292, R323, R329). -/
inductive AccKind
  | load (sx : Bool)
  | store
  | atomic (op : Nat)
  | atomicR (op : Nat)
  | pacq | prel | ptry
  | waitv (cond : Nat)
  /-- A copy-in of ACP: the bytes go to the scratchpad of the core. -/
  | acpIn (spad : Nat) (fill : Nat)
  /-- A copy-out of ACPS from a scratchpad address of the core. -/
  | acpOut (spad : Nat)
  /-- CPROJ's read of the rows of a projection set: the set, its d and PID (R386). -/
  | proj (set d pid : Nat)
  /-- A lane whose instruction issues again when the pager has answered (R389); KIND of its record. -/
  | again (kind : Nat)
  /-- A commit that has failed to translate (R333, R335): the name its TEND's lanes wait for, the TEND's mask register, and the mask of its
  lanes that abort. -/
  | commit (tend mask aborted : Nat)
deriving DecidableEq, Repr

/-- How far an access has come. -/
inductive Stage
  /-- Translation outstanding. -/
  | issued
  /-- Translated. -/
  | ready
  /-- Holds a memory request slot of its channel (R267). -/
  | granted
  /-- Performed; the reply is on its way. -/
  | replying
  /-- Failed to translate, raced or met an uncorrectable error: parked (R275, R309, R412). -/
  | parked
deriving DecidableEq, Repr

/-- One lane's access to global memory, from issue to reply (R286, R295). -/
structure Access where
  id : Nat
  core : Nat
  gid : Nat
  lane : Nat
  seqno : Nat
  pc : Pc
  mode : Mode
  slot : Nat
  kind : AccKind
  /-- SEM, SCOPE and RD. -/
  sem : Nat
  scope : Nat
  rd : Nat
  va : Nat
  size : Nat
  /-- The datum, the CAS comparison value, and the mask of bytes stored. -/
  data : Nat
  data2 : Nat
  mask : Nat
  /-- The register written on reply, and how many 32-bit registers it takes. -/
  dest : Operand
  regs : Nat
  /-- The copy tag of an ACP. -/
  tag : Option Nat
  /-- C and H carried (R295). -/
  c : Nat
  h : Nat
  /-- Part of a transaction, or of an irrevocable run (R332, R337). -/
  tx : Bool
  irrev : Bool
  stage : Stage
  pa : Nat
  repl : Bool
  /-- The operand-log entry held (R276). -/
  log : Option Nat
  /-- Replays with its race check passed (R309). -/
  passed : Bool
  /-- The race report of an access parked by the detector (R310): OTHER, hash, OMASK, KIND. -/
  race : Option (Nat × Nat × Nat × Nat)
  /-- The reply: the value, the stamp, the stamp of the write read, the horizon an acquire takes; none where no write was read, or
  where none is stamped (R263). -/
  value : Nat
  stamp : Nat
  readOf : Option Nat
  horizon : Option Nat
  /-- The clk of issue and the clk a time-out ends, for WAITV and PACQ retries. -/
  since : Nat
  timeout : Option Nat
  /-- Held or parked at some time: C and H are taken at performance (R276, R279). -/
  late : Bool
  /-- Held behind a parked access of its lane until that one has performed (R276). -/
  held : Bool
  /-- Waits for an operand-log entry: not parked yet where its own translation has failed, else parked or held without one (R276). -/
  logWait : Bool
  /-- PACQ: queued at the owner; turned away, to try again (R329, R330). -/
  queued : Bool
  away : Bool
  /-- The order in which its portal has accepted it (R303). -/
  order : Nat
  /-- The highest stamp that the lower lanes of its instruction have taken (R286). -/
  floor : Option Nat
  /-- The lane has ended: the reply goes nowhere (R101). -/
  orphan : Bool
  /-- The lanes of the PC set that stalls until the access is over (R389); 0 for none. -/
  set : Nat
  /-- Sector and stamp of each store that its instruction's other lanes have performed: they never race with it (R286). -/
  peers : List (Nat × Nat)
deriving DecidableEq, Repr

/-- A fault record not yet written (R277), with the lanes that stall until it is (R278). -/
structure FaultRec where
  va : Nat
  pc : Nat
  seqno : Nat
  rowid : Nat
  lanes : Nat
  core : Nat
  lane : Nat
  kind : Nat
  stamp : Nat
  asid : Nat
  vmid : Nat
  cause : Nat
  slotByte : Nat
  log : Nat
  ipa : Nat
  gid : Nat
  setLanes : Nat
deriving DecidableEq, Repr

/-- A translation buffer entry, combined over both stages (R271, R273). -/
structure TlbEntry where
  asid : Nat
  vmid : Nat
  /-- The entry covers 2^size bytes from va. -/
  va : Nat
  size : Nat
  pa : Nat
  /-- The intermediate address of va. -/
  ipa : Nat
  /-- R, W, X rights of stage 1 (bits 0, 1, 2), those of stage 2, and U of stage 1. -/
  rights1 : Nat
  rights2 : Nat
  u : Bool
  repl : Bool
  fold : Bool
  /-- SIZE of R289. -/
  leaf : Nat
  /-- The address of the stage-1 leaf of the entry's first page, and log2 of what one such leaf covers; the leaves of a folded group
  follow one another (R271). -/
  leafPa : Nat
  step : Nat
  /-- The same of stage 2, under two-stage translation. -/
  leafPa2 : Option Nat
  step2 : Nat
  /-- The leaves of either stage, by their places in the entry, whose D bit is known set (R274). -/
  dirty : Nat
  dirty2 : Nat
deriving DecidableEq, Repr

/-- A weight block of the Ridgeline (R176, R178): operator, expert, opening and place, its format and its bytes in the
layout of R177, and the boarded groups (by uid) that have neither streamed from it nor left (R179). -/
structure RideBlock where
  op : Nat
  expert : Nat
  opening : Nat
  place : Nat
  fmt : Nat
  bytes : Map Byte
  users : List Nat
  /-- Physical addresses of sectors that could not be read (R254). -/
  bad : List Nat
deriving DecidableEq, Repr

/-- A weight bank of a core (R176 to R179). -/
structure Bank where
  /-- 0 EMPTY, 1 FILLING, 2 READY. -/
  st : Nat
  /-- The format last latched (R202). -/
  fmt : Nat
  /-- The block's bytes in the layout of R177. -/
  bytes : Map Byte
  /-- A private block: the uid of its group. -/
  owner : Option Nat
  /-- A ride block. -/
  ride : Option RideBlock
  /-- The group and tag that count the fill (R199). -/
  tag : Option (Nat × Nat)
  /-- The group has given the bank up; it is released when its queued operations have streamed (R179). -/
  releasing : Bool
  /-- Uncorrectable words of the block (R192): the sectors they came from, 0 for scratchpad. -/
  bad : List Nat
deriving DecidableEq, Repr

/-- An incomplete SFILL (R175): destination, bytes left, pattern. -/
structure Fill where
  id : Nat
  gid : Nat
  slot : Nat
  addr : Nat
  bytes : Nat
  pattern : Nat
  size : Nat
  tag : Option Nat
deriving DecidableEq, Repr

/-- A core barrier counter (R92). -/
structure Barrier where
  /-- Uids of the arrived groups. -/
  arrived : List Nat
  expected : Nat
  phase : Nat
  /-- The highest C among the arrived lanes, and that of the last completed phase. -/
  clock : Nat
  passed : Nat
deriving DecidableEq, Repr

/-- A CTXSV that waits for its slot to come to rest (R425): the slot, and the lane that issues it. -/
structure Saving where
  slot : Nat
  gid : Nat
  uid : Nat
  lane : Nat
  pc : Pc
deriving DecidableEq, Repr

/-- A lane transfer entry of ACP or ACPS is an `Access`; this is the state of a core (R75 to R92, R155 to R175). -/
structure Core where
  groups : Map Group
  counter : Nat
  /-- Credits: key 4·pipeline + slot (R85), and the clk that they are those of; they have grown in every clk since. -/
  credits : Map (BitVec 7)
  creditClk : Nat
  /-- PRIO, SHARE and GMAX of SLOTCFG0 to 3 (R78). -/
  slotcfg : List Long
  /-- Scratchpad bytes (R155). -/
  spad : Map Byte
  /-- Hidden stamps of arrival barriers by word address (R90): of the current phase in bits [39:0], of the completed phase
  in bits [79:40]; bits 80 and 81 say which of the two there is. -/
  hidden : Map (BitVec 82)
  spmap : Long
  /-- A WRPR of SPMAP or ACCOWN being carried out (R158, R164): the value, the group and the request its lanes wait for. -/
  spmapNew : Option (Long × Nat × Nat)
  accown : Long
  accownNew : Option (Long × Nat × Nat)
  /-- Accumulator tiles: key ((tile·64 + row)·128 + column) (R164). -/
  acc : Map Word
  /-- Core barriers: key 16·slot + id. -/
  cbar : Map Barrier
  banks : List Bank
  landing : List RideBlock
  queue : List MatOp
  fills : List Fill
  tlb : List TlbEntry
  racectl : Long
  txcfg : Long
  hdeleg : Long
  hvec : Long
  hctl : Long
  ckptcfg : Long
  ckptstop : Long
  ckptPos : Nat
  svec : List Long
  tarea : List Long
  ptroot : List Long
  vmroot : List Long
  stage : Nat
  /-- Slots frozen by FREEZE.SLOT, with the clk. -/
  frozen : Map Nat
  /-- Uncorrectable words: scratchpad bytes and accumulator words (R192, R444). -/
  badSpad : List Nat
  badAcc : List Nat
  /-- Function-unit grants (R132): the pipeline granted last, the clk of the last grants, and the pipelines granted and refused in
  it. -/
  fuLast : Nat
  fuClk : Option Nat
  fuGranted : List Nat
  fuRefused : List Nat
  saving : Option Saving
deriving DecidableEq, Repr

end Sys2Proof.Machine
end

