-- ==== Sys2Proof/Machine/TypesDie.lean ====
section
/-!
DEFINITION. The records of the state that belong to clusters, dies and the package (spec/09 to 16, 18).
-/
namespace Sys2Proof.Machine

/-- A line resident in a slice (R265). -/
structure SliceLine where
  /-- Physical address divided by 128. -/
  line : Nat
  cluster : Nat
  slice : Nat
  set : Nat
  way : Nat
  v : Nat
  once : Bool
  pin : Bool
  /-- Sectors of the line that are valid, and those that are dirty. -/
  valid : Nat
  dirty : Nat
deriving DecidableEq, Repr

/-- Race metadata of a sector (R305). -/
structure SectorMeta where
  w : Nat
  wh : Nat
  wmask : Nat
  r : Nat
  rh : Nat
  rmask : Nat
deriving DecidableEq, Repr

/-- A projection set (R371): its id, its d, and 16 rows of d BF16 patterns. -/
structure Proj where
  pid : Nat
  d : Nat
  rows : List (List Nat)
deriving DecidableEq, Repr

/-- A CRED arrival at a cluster reduction unit (R378). -/
structure CredArrival where
  core : Nat
  gid : Nat
  uid : Nat
  role : Nat
  slot : Nat
  count : Nat
  ctl : Nat
  dest : Nat
  addr : Nat
  c : Nat
  norm : Bool
  clock : Nat
deriving DecidableEq, Repr

/-- The CRED arrivals of one merge id: of the current phase in order, and those held for a later one (R378). -/
structure CredUnit where
  now : List CredArrival
  held : List CredArrival
deriving DecidableEq, Repr

/-- Who waits for a permit (R329): a lane of this package, by its PACQ's access, or a fibre of another one. -/
inductive Waiter
  | lane (id : Nat)
  | peer (fid : Nat)
deriving DecidableEq, Repr

/-- A cluster's service unit and reduction unit (R92, R318 to R331, R371, R378). -/
structure Cluster where
  /-- KBAR counters, ids 0 to 63. -/
  kbar : Map Barrier
  /-- Permit words with waiters: the holder's fid, and the waiters in order of arrival (R329). -/
  permits : Map (Nat × List Waiter)
  /-- fid of the holder of the fallback permit (R331), and the waiters: (stamp key, core, gid, lane). -/
  fallback : Option Nat
  fallbackWait : List (Nat × Nat × Nat × Nat)
  /-- The stamp its last holder released (R312). -/
  fallbackStamp : Option Nat
  /-- Projection sets (R371) and merges (R378). -/
  proj : Map Proj
  creds : Map CredUnit
deriving DecidableEq, Repr

/-- A schedule entry: one pass (R242). -/
structure Entry where
  addr : Nat
  kb : Nat
  nb : Nat
  expert : Nat
  fmt : Nat
  dem : Bool
  pin : Bool
deriving DecidableEq, Repr

/-- A tile in a ready queue (R216). -/
structure Tile where
  /-- Record indexes of its rows that are not pads, and the tag they share. -/
  rows : List Nat
  tag : Nat
  height : Nat
  tenant : Nat
  /-- The clk in which it fired. -/
  fired : Nat
  /-- The number of its firing on the die: a lower one fired earlier. -/
  order : Nat
deriving DecidableEq, Repr

/-- An operator slot that is BOUND or CLOSING (R211 to R213); an unlisted slot is FREE. -/
structure OpSlot where
  /-- Model's own: a number that no other binding of a slot has (log 1). -/
  bind : Nat
  /-- 1 BOUND, 2 CLOSING. -/
  st : Nat
  entry : Nat
  window : Nat
  groups : Nat
  ctxslot : Nat
  stage : Nat
  /-- 8 · cluster + Col unit. -/
  home : Nat
  kbarn : Nat
  fpctl : Nat
  idem : Bool
  clone : Bool
  cloneMax : Nat
  region : Nat
  thresholds : Nat × Nat × Nat
  timeout : Nat
  balMark : Nat
  balInt : Nat
  portal : Nat
  /-- The core bound to each role (R214). -/
  roles : List (Option Nat)
  chains : List (List Nat)
  sched : List Entry
  /-- PTROOT and VMROOT of the slot that bound it: the address space of its schedule (R254). -/
  ptroot : Nat
  vmroot : Nat
  /-- The original of a clone (R228). -/
  cloneOf : Option Nat
  ready : List Tile
  /-- The role the last tile was placed on (R218). -/
  lastRole : Nat
  /-- The clk since which demand has been above BALMARK, and below BALMARK / 2 (R228). -/
  hotSince : Option Nat
  coldSince : Option Nat
  /-- The clk in which it last fired, if it has (R231). -/
  firedAt : Option Nat
  /-- The lines of its PIN blocks, which stand in the slices from OPBIND on (R252). -/
  pinned : List Nat
  /-- The leaves of their pages, whose PINS it has raised (R252). -/
  leaves : List Nat
deriving DecidableEq, Repr

/-- A token record (R205). -/
structure Rec where
  /-- 1 STORE, 2 COL, 3 TILE, 4 FLIGHT, 5 PARKED. -/
  place : Nat
  code : Nat
  hdr : Nat
  tag : Nat
  next : Nat
  stamp : Nat
  act : Nat
  samp : Nat
  pen : Nat
  /-- Held by hardware: the join count, the rows' NEXT agreed so far (R225), the stamp of the last release (R226). -/
  join : Nat
  joinNext : Option Nat
  release : Nat
  /-- Order of entry into its Col unit (R229). -/
  entered : Nat
  /-- The operator slots on whose cores its rows stand in placed tiles: of the operator or of a clone (R218, R228). -/
  tiles : List Nat
deriving DecidableEq, Repr

/-- A row entry of a Col unit (R215). -/
structure ColRow where
  rid : Nat
  tag : Nat
  arrived : Nat
deriving DecidableEq, Repr

/-- A Col unit (R215). -/
structure Col where
  rows : List ColRow
  /-- Tags by tag entry index. -/
  tags : List (Option Nat)
  /-- Rows that wait in STORE, oldest first. -/
  waiting : List ColRow
  /-- The stage number the unit carries (R16). -/
  stage : Nat
deriving DecidableEq, Repr

/-- A forward (R226): its place in the order of all forwards, and the lane that made it: core, group uid and lane. -/
structure Forward where
  order : Nat
  core : Nat
  uid : Nat
  lane : Nat
deriving DecidableEq, Repr

/-- A record that a merge holds (R229), or that follows one of its lane (R226): its operator before and its rows' tags. -/
structure Held where
  rid : Nat
  from_ : Nat
  /-- Its sequence, while the merge keeps it in order with the others of it. -/
  seq : Option Nat
  stamp : Nat
  entered : Nat
  tags : List Nat
  fwd : Forward
  /-- It goes to an operator of its own die. -/
  here : Bool
deriving DecidableEq, Repr

/-- A token packet in flight, or in the receive buffer of its link (R209, R227). -/
structure Packet where
  id : Nat
  /-- The sender's die; of a packet from another package 4 more than the number of the link. -/
  srcDie : Nat
  srcRec : Nat
  /-- Package and die of the destination. -/
  pkg : Nat
  die : Nat
  image : Rec
  tags : List Nat
  /-- Accepted at the destination. -/
  accepted : Bool
  /-- The forward that sent it, if one did. -/
  fwd : Option Forward
deriving DecidableEq, Repr

/-- A weight block read and not yet delivered to every rider's core (R246). -/
structure Staged where
  place : Nat
  bytes : Map Byte
  bad : List Nat
  cores : List Nat
  since : Nat
deriving DecidableEq, Repr

/-- An open pass (R245, R246). -/
structure Pass where
  id : Nat
  op : Nat
  expert : Nat
  bind : Nat
  entry : Entry
  /-- The turn it opened in. -/
  turn : Nat
  next : Nat
  staged : List Staged
  /-- Riders: (core, group uid). -/
  riders : List (Nat × Nat)
  /-- A block read has faulted and waits for PGDONE (R254): the address. -/
  fault : Option Nat
  /-- A PIN pass (R252). -/
  pin : Bool
  /-- The roots of the address space that its addresses belong to (R254). -/
  pt : Nat
  vm : Nat
deriving DecidableEq, Repr

/-- What has become of a pass in the current turn (R259). -/
structure PassStat where
  op : Nat
  expert : Nat
  bind : Nat
  /-- 0 not yet opened, 1 open, 2 closed, 3 skipped. -/
  st : Nat
  read : Nat
  /-- Its segment's decision has been made, and has selected it (R250). -/
  decided : Bool
  selected : Bool
deriving DecidableEq, Repr

/-- An entry of the rotation as the current turn has it (R244): operator, stage, entry, and the roots of its address space. -/
structure RotEntry where
  op : Nat
  bind : Nat
  stage : Nat
  entry : Entry
  pt : Nat
  vm : Nat
deriving DecidableEq, Repr

/-- A RIDGE.SYNC that waits for the next turn (R260). -/
structure SyncWait where
  id : Nat
  core : Nat
  gid : Nat
  dest : Operand
  lanes : Nat
deriving DecidableEq, Repr

/-- A count in a reservation (R251): the pass by operator · 256 + expert, the record that predicted it while no GATEK has
confirmed it, and whether a decision has counted it. -/
structure Resv where
  key : Nat
  rid : Option Nat
  decided : Bool
deriving DecidableEq, Repr

/-- The Ridgeline engine of a die (spec/10). -/
structure Ridge where
  cfg : Long
  paused : Bool
  /-- Turns begun; the clk of the last two openings of a turn's first entry. -/
  turns : Nat
  first : Option Nat
  period : Nat
  /-- The rotation of the current turn, in order; entries up to `cursor` have opened. -/
  rotation : List RotEntry
  cursor : Nat
  stats : List PassStat
  passes : List Pass
  /-- Reservations (R251). -/
  reserved : List Resv
  /-- Bytes read in the current window of 4,096 clk, and the window's number (R246). -/
  window : Nat
  used : Nat
  nextPass : Nat
  /-- The pass whose turn it is to read a block: of passes that can, the first numbered from here on (R246). -/
  readFrom : Nat
  syncs : List SyncWait
deriving DecidableEq, Repr

/-- What a copy-engine request does (R351, R352). -/
inductive EngKind
  | copy (dsp ssp : Bool)
  /-- Row bytes and the scratchpad address of the index list. -/
  | gath (row list : Nat)
  /-- Pattern and width. -/
  | fill (pattern width : Nat)
  | mcast (ssp : Bool)
  /-- The copy of an adapter before a tile group starts (R255). -/
  | adapter
deriving DecidableEq, Repr

/-- A copy-engine request (R344, R351, R352). -/
structure EngReq where
  id : Nat
  core : Nat
  gid : Nat
  uid : Nat
  slot : Nat
  lane : Nat
  mode : Mode
  pc : Nat
  seqno : Nat
  kind : EngKind
  /-- The tag that counts the request, and the tag whose error word records it. -/
  tag : Option Nat
  errTag : Option Nat
  /-- Virtual or physical addresses, or scratchpad addresses of the core. -/
  dst : Nat
  src : Nat
  bytes : Nat
  /-- Bytes moved. -/
  done : Nat
  phys : Bool
  /-- XMCAST: targets not yet arrived at (core, context slot), and the arrival offset. -/
  targets : List (Nat × Nat)
  arrive : Option Nat
  /-- C and the highest stamp so far (R313). -/
  stamp : Nat
  /-- The address whose record the request waits on (R354). -/
  fault : Option Nat
  ended : Bool
  /-- An engine is moving a piece of it (R344, R353). -/
  moving : Bool
  /-- The destination sector of the last byte moved, where it is left as zeros for an uncorrectable source (R354). -/
  zeroed : Option Nat
  /-- Issued in an irrevocable run (R337). -/
  irrev : Bool
deriving DecidableEq, Repr

/-- What a request to the KV block engine asks (R366 to R385). -/
inductive KvKind
  | map | info | app | fork | free | freeAll | kstore
  | gath (trap : Bool)
deriving DecidableEq, Repr

/-- A lane's request to a KV block engine or its gather port (R363). -/
structure KvReq where
  id : Nat
  core : Nat
  gid : Nat
  lane : Nat
  slot : Nat
  mode : Mode
  seqno : Nat
  pc : Pc
  kind : KvKind
  /-- The KV address word, and the operands B and C. -/
  word : Nat
  b : Nat
  c : Nat
  ofs : Nat
  sem : Nat
  scope : Nat
  rd : Nat
  dest : Operand
  pd : Option (Fin 15)
  tag : Option Nat
  /-- C and H at issue, and the highest C of its lane and the lower lanes of its instruction, by which it takes its turn (R363, R380). -/
  clock : Nat
  horizon : Nat
  order : Nat
  /-- The instruction it belongs to, whose PC set stalls until every reply is back (R380), and the clk of issue. -/
  batch : Nat
  since : Nat
  /-- The address whose record the request waits on (R365). -/
  fault : Option Nat
  orphan : Bool
deriving DecidableEq, Repr

/-- A COW copy of a block (R367): the request it completes, the space, the entry being read, the address of the block written, and the
physical places that it reads, writes and clears COPY in, all translated when the request was performed (R365). -/
structure Cow where
  id : Nat
  req : KvReq
  space : Nat
  entry : Nat
  block : Nat
  clock : Nat
  reads : List (Nat × Nat)
  writes : List (List Nat × Nat)
  entryAt : List Nat
  /-- The address of the entry. -/
  entryVa : Nat
deriving DecidableEq, Repr

/-- A KSTORE between its checks and its publication (R374): bucket, reserved slot of it, signature; a lost
entry has no slot. -/
structure Publication where
  id : Nat
  req : KvReq
  space : Nat
  seq : Nat
  bucket : Nat
  index : Nat
  sig : Nat
  lost : Bool
  /-- The clock after its key and entry writes. -/
  stamp : Nat
  /-- Physical addresses of its head's COUNT, and its address. -/
  headAt : List Nat
  headVa : Nat
deriving DecidableEq, Repr

/-- A batching-table slot (R391); an unlisted slot is FREE. -/
structure Seq where
  /-- 1 LIVE, 2 ENDED, 3 MOVING. -/
  st : Nat
  samp : Nat
  pen : Nat
  done : Nat
  tenant : Nat
  code : Nat
  /-- The scanner's automaton; the rest of its state lies in memory (R403). -/
  auto : Nat
deriving DecidableEq, Repr

/-- What a request to the stop scanner asks (R405, R406). -/
inductive ScanKind
  | feed (bytes : List Nat)
  | flush
  | reset (auto : Nat)
  /-- SCANR: byte count and physical scratchpad address. -/
  | read (count addr : Nat)
deriving DecidableEq, Repr

/-- A lane's request to the stop scanner (R403). -/
structure ScanReq where
  id : Nat
  /-- The instruction it belongs to. -/
  batch : Nat
  core : Nat
  gid : Nat
  lane : Nat
  seq : Nat
  kind : ScanKind
  dest : Operand
deriving DecidableEq, Repr

/-- A die (spec/09 to 16). -/
structure Die where
  ltlb : List TlbEntry
  slices : List SliceLine
  /-- Base-die cache lines by channel: (channel, line). -/
  baseCache : List (Nat × Nat)
  floor : Nat
  peak : Nat
  fqbase : Long
  fqptr : Long
  faults : List FaultRec
  ops : Map OpSlot
  recs : Map Rec
  cols : Map Col
  /-- Counts entries into Col units and firings. -/
  entries : Nat
  tenq : List Long
  deficits : Map Nat
  lastTenant : Nat
  merge : List Held
  stallcfg : Long
  /-- Frozen regions with the clk of the freeze (R231, R429). -/
  frozen : Map Nat
  /-- The clk since which some record of a region has stood in STORE, COL or TILE (R231). -/
  busySince : Map Nat
  /-- Stall-watch traps held until they can be taken (R430): region and MAPADDR. -/
  hangs : List (Nat × Nat)
  ridge : Ridge
  adpcfg : Long
  /-- RQSTAT.PEAK (R267). -/
  rqPeak : Nat
  /-- Copy-engine requests in queue order (R344). -/
  engine : List EngReq
  kvdir : Long
  kvq : List KvReq
  gathers : List KvReq
  cows : List Cow
  pubs : List Publication
  /-- Cursors of a space n (R359, R360, R374): 4n block, 4n + 1 bucket block, 4n + 2 anchor. -/
  cursors : Map Nat
  seqs : Map Seq
  scancfg : Long
  scanq : List ScanReq
deriving DecidableEq, Repr

/-- What a TLBINV removes (R420): 0 a page of a space, 1 a space of a machine, 2 a machine, 3 everything. -/
structure InvalTarget where
  kind : Nat
  va : Nat
  asid : Nat
  vmid : Nat
deriving DecidableEq, Repr

/-- A deferred or running TLB invalidation (R283, R420): its lanes, what it removes, and the passes open at its issue over a page
it covers, by die and number. -/
structure Inval where
  id : Nat
  core : Nat
  gid : Nat
  lanes : Nat
  targets : List InvalTarget
  passes : List (Nat × Nat)
deriving DecidableEq, Repr

end Sys2Proof.Machine
end

