-- ==== Sys2Proof/Machine/State.lean ====
section
/-!
DEFINITION. The state of the Iryalet as plain data, the reasons a step can stop, and the state after reset.
-/
namespace Sys2Proof.Machine

/-- Why the machine stops with a fault. -/
inductive Fault
  /-- Raised by the meaning of an instruction when no PC set is issuing (the model's `cur` is empty): the step function
  never does this. Safe: hardware issues an instruction only for a PC set. -/
  | noIssuer
deriving DecidableEq, Repr

/-- Why an instruction is refused. -/
inductive Refusal
  /-- Raised by an arm of `exec` whose instruction has no meaning in the model yet. Safe. -/
  | notModelled (mnemonic : String)
deriving DecidableEq, Repr

/-- The issue latch: the PC set a pipeline has picked (R83), and what R51 to R53 need to know of it. Model's own (log 1). -/
structure Issue where
  core : Nat
  gid : Nat
  lanes : Nat
  /-- The second half of a pair follows (R53). -/
  pair : Bool
  /-- This is the second half of a pair. -/
  second : Bool
  /-- The line has been fetched a second time (R51, R52). -/
  refetched : Bool
  /-- The lanes of the group's current set before the issue (R83). -/
  was : Nat
  /-- The predicate of the instruction being issued (R54). -/
  guard : Guard
  /-- The core's credits once the set has issued (R85). -/
  credits : Map (BitVec 7)
deriving DecidableEq, Repr

/-- The operands of an event: which agent and which piece of work (spec/95). Model's own (log 1). -/
structure EventArgs where
  /-- Core, die, cluster or port, as the event says. -/
  unit : Nat
  /-- Group, request, bank, pass or operator. -/
  item : Nat
  /-- Lane or further number. -/
  sub : Nat
  flag : Bool
  addr : Nat
  size : Nat
  value : Nat
  value2 : Nat
  hostOp : HostOp
  peerOp : PeerOp
  wake : WakeCause
  boot : BootOutcome
  /-- The sectors of a peer's commit: those it has read and those it writes (R335). -/
  reads : List LogSector
  writes : List LogSector
deriving DecidableEq, Repr

/-- One entry of the order in which agents move: clk that pass first, then an event (log 1). -/
structure Turn where
  after : Nat
  event : Instr
  args : EventArgs
deriving DecidableEq, Repr

/-- The completion the host port or a PSL port last returned (R435, R437, R438, R440): whether it succeeded, its
data, and whether they are marked as uncorrectable (R444). -/
structure Completion where
  ok : Bool
  value : Nat
  marked : Bool
deriving DecidableEq, Repr

/-- The boot journal as a start reads it (R448): the step that has begun and not ended, how many times in a row each step has
failed (one entry a failure), starts since it was cleared, and whether an image has been reloaded that no start has authenticated yet
(R449). -/
structure Journal where
  open_ : Option Nat
  failed : List Nat
  starts : Nat
  fresh : Bool
deriving DecidableEq, Repr

/-- The state of the machine: everything the spec gives it. -/
structure State where
  /-- CLOCK (R112). -/
  clk : Nat
  /-- Model's own: the counter that feeds the free values of Config (log 2). -/
  free : Nat
  /-- Model's own: the next name of an access or request (log 1). -/
  nextId : Nat
  /-- Model's own: the agents that move next (log 1). -/
  sched : List Turn
  /-- Model's own: the operands of the event that runs (log 1). -/
  turn : EventArgs
  /-- Model's own: the issue latch (log 1). -/
  cur : Option Issue
  /-- Main memory: the bytes of the 52-bit physical space (R261), an unlisted byte reading zero (log 5). -/
  mem : List (Nat × BitVec 8)
  /-- Race metadata by sector number (R305); a sector without an entry has W and R at its die's settle floor. -/
  rmeta : Map SectorMeta
  /-- Uncorrectable sectors, by sector number (R444). -/
  poison : List Nat
  accesses : List Access
  /-- Sectors that irrevocable runs of saved groups hold locked: the group's uid and the sector (R337, R425). -/
  awayLocks : List (Nat × Nat)
  invals : List Inval
  /-- Token packets in flight, in the order sent (R227). -/
  packets : List Packet
  cores : Map Core
  clusters : Map Cluster
  dies : Map Die
  pkgcfg : Long
  pslstat : Long
  lattol : Long
  hwin : Long
  bootstat : Long
  /-- AtomicOp sizes the host port completes: 32, 64, 128 bits (R438). -/
  hostAtomics : BitVec 3
  removed : Long
  /-- MSI-X table words by index (R439); an unlisted one is as after reset (log 16). Pending bits by vector. -/
  msix : Map Long
  msixPending : List Nat
  /-- Messages sent, in order: address and data (R439). -/
  messages : List (Nat × Nat)
  journal : Journal
  /-- The clk since which no die has had a rider (R446). -/
  noRider : Nat
  outbox : Option Completion
deriving DecidableEq, Repr

/-- Operands of an event that takes none. -/
def EventArgs.zero : EventArgs :=
  ⟨0, 0, 0, false, 0, 0, 0, 0, .swap, .read, .inbound, ⟨0, 0, 0, 0, 0⟩, [], []⟩

/-- The machine right after reset (R435, R439, R441, R445, R448): no core, cluster or die has left its own reset state, and
memory lists nothing (log 4, log 5). PKGCFG.FAMILY is 1. -/
def State.reset : State :=
  { clk := 0, free := 0, nextId := 0, sched := [], turn := EventArgs.zero, cur := none, mem := [], rmeta := [], poison := [],
    accesses := [], awayLocks := [], invals := [], packets := [], cores := [], clusters := [], dies := [], pkgcfg := 0x0100_0000_0000_0000, pslstat := 0, lattol := 0,
    hwin := 0, bootstat := 0x0000_FF00_0000_0000, hostAtomics := 0, removed := 0, msix := [], msixPending := [], messages := [],
    journal := ⟨none, [], 0, false⟩, noRider := 0, outbox := none }

end Sys2Proof.Machine
end

