-- ==== Sys2Proof/Machine/Ops.lean ====
section
/-!
DEFINITION. The named operations every meaning is built from: finding and changing cores, groups and lanes; memory and
its owners (R13, R264); translation (R268 to R274); mask release (R87); transactions' abort (R331, R333); taking a trap
and returning from one (R408 to R413).
-/
namespace Sys2Proof.Machine

/-! ### Empty records -/

/-- A lane's transaction state before any TBEGIN (R340). -/
def Tx.none : Tx :=
  ⟨false, false, 0, 0, false, false, 0, 0, 0, Option.none, 0, .none, [], [], [], Option.none, 0, Option.none, false⟩

/-- A lane without a fibre (R74). -/
def Lane.empty : Lane :=
  ⟨false, 0, .u, 0x8000, [], [], [], 0, 0, 0, Tx.none, .none, none, [], none, false, none⟩

/-- A mask with nobody enrolled (R76). -/
def MaskReg.empty : MaskReg := ⟨0, 0, [], 0, 0, none⟩

/-- A copy tag with nothing outstanding. -/
def Tag.zero : Tag := ⟨0, none, 0⟩

/-- A group without lanes, window or tile (R76). -/
def Group.empty : Group :=
  { gid := 0, slot := 0, pipe := 0, stamp := 0, uid := 0, window := [], v := [], badV := [], s := [], lanes := List.replicate 32 Lane.empty,
    masks := List.replicate 12 MaskReg.empty, opid := 0, tenant := 0, rows := 0, tileh := 0, tile := [], tileTag := 255, tileFired := 0, tileOrder := 0, fpctl := 0,
    fpstat := 0, tags := List.replicate 8 Tag.zero, current := 0, turn := 0, idem := false, seqno := 0, ride := none,
    boardings := [], eject := false, step := [], frozenSlot := none, frozenRegion := none, parent := none, lastIssue := none, skip := 0 }

/-- An EMPTY weight bank (R177). -/
def Bank.empty : Bank := ⟨0, 0, [], none, none, none, false, []⟩

/-- A barrier that no group has arrived at (R92). -/
def Barrier.reset : Barrier := ⟨[], 0, 0, 0, 0⟩

/-- A core after reset (R78, R157, R164, R311, R338, R418). -/
def Core.reset : Core :=
  { groups := [], counter := 0, credits := [], creditClk := 0, slotcfg := List.replicate 4 (0x18_0001_0000#64), spad := [], hidden := [],
    spmap := 0x6000, spmapNew := none, accown := 0xF00#64, accownNew := none, acc := [], cbar := [],
    banks := [Bank.empty, Bank.empty], landing := [], queue := [], fills := [], tlb := [], racectl := 0, txcfg := 4,
    hdeleg := 0, hvec := 0, hctl := 0, ckptcfg := 0, ckptstop := 0, ckptPos := 0, svec := List.replicate 4 0,
    tarea := List.replicate 4 0, ptroot := List.replicate 4 0, vmroot := List.replicate 4 0, stage := 0, frozen := [],
    badSpad := [], badAcc := [], fuLast := 0, fuClk := none, fuGranted := [], fuRefused := [], saving := none }

/-! ### Finding and changing records -/

/-- A core; one the state does not list is as after reset. -/
def State.core (s : State) (c : Nat) : Core := (s.cores.find? c).getD Core.reset
/-- The state with a core changed. -/
def State.setCore (s : State) (c : Nat) (k : Core) : State := { s with cores := s.cores.put c k }
/-- The state with a core changed by a function. -/
def State.onCore (s : State) (c : Nat) (f : Core → Core) : State := s.setCore c (f (s.core c))
/-- A resident group. -/
def State.group? (s : State) (c g : Nat) : Option Group := (s.core c).groups.find? g
/-- A group; a GROUPID that is not resident names a group without live lanes. -/
def State.group (s : State) (c g : Nat) : Group := (s.group? c g).getD Group.empty
/-- The state with a group changed. -/
def State.setGroup (s : State) (c g : Nat) (x : Group) : State := s.onCore c fun k => { k with groups := k.groups.put g x }
/-- The state with a resident group changed by a function. -/
def State.onGroup (s : State) (c g : Nat) (f : Group → Group) : State :=
  match s.group? c g with
  | some x => s.setGroup c g (f x)
  | none => s
/-- A lane of a group. -/
def Group.lane (x : Group) (l : Nat) : Lane := (x.lanes[l]?).getD Lane.empty
/-- A group with a lane changed by a function. -/
def Group.onLane (x : Group) (l : Nat) (f : Lane → Lane) : Group := { x with lanes := setAt x.lanes l (f (x.lane l)) }
/-- A group with each lane of a list changed by a function of its number. -/
def Group.onLanes (x : Group) (ls : List Nat) (f : Nat → Lane → Lane) : Group :=
  { x with lanes := mapIdxFrom (fun i l => if ls.contains i then f i l else l) 0 x.lanes }
/-- The state with a lane of a group changed by a function. -/
def State.onLane (s : State) (c g l : Nat) (f : Lane → Lane) : State := s.onGroup c g fun x => x.onLane l f
/-- The state with lanes of a group changed by a function of their numbers. -/
def State.onLanes (s : State) (c g : Nat) (ls : List Nat) (f : Nat → Lane → Lane) : State :=
  s.onGroup c g fun x => x.onLanes ls f
/-- A mask register of a group. -/
def Group.mask (x : Group) (k : Nat) : MaskReg := (x.masks[k]?).getD MaskReg.empty
/-- A group with a mask register changed. -/
def Group.setMask (x : Group) (k : Nat) (m : MaskReg) : Group := { x with masks := setAt x.masks k m }
/-- A copy tag of a group. -/
def Group.tag (x : Group) (k : Nat) : Tag := (x.tags[k]?).getD Tag.zero
/-- A group with a copy tag changed by a function. -/
def Group.onTag (x : Group) (k : Nat) (f : Tag → Tag) : Group := { x with tags := setAt x.tags k (f (x.tag k)) }
/-- The live lanes of a group. -/
def Group.live (x : Group) : List Nat := (List.range 32).filter fun l => (x.lane l).live

/-- A cluster without waiters. -/
def Cluster.reset : Cluster := ⟨[], [], none, [], none, [], []⟩
/-- A cluster, numbered die × 10 + cluster. -/
def State.cluster (s : State) (c : Nat) : Cluster := (s.clusters.find? c).getD Cluster.reset
/-- The state with a cluster changed by a function. -/
def State.onCluster (s : State) (c : Nat) (f : Cluster → Cluster) : State :=
  { s with clusters := s.clusters.put c (f (s.cluster c)) }
/-- A Ridgeline engine after reset (R247). -/
def Ridge.reset : Ridge :=
  { cfg := 0x0100_0010_0000_5A00, paused := false, turns := 0, first := none, period := 0, rotation := [], cursor := 0,
    stats := [], passes := [], reserved := [], window := 0, used := 0, nextPass := 0, readFrom := 0, syncs := [] }

/-- A die after reset (R220, R230, R255, R278, R308). -/
def Die.reset : Die :=
  { ltlb := [], slices := [], baseCache := [], floor := 0, peak := 0, fqbase := 0, fqptr := 0, faults := [], ops := [],
    recs := [], cols := [], entries := 0, tenq := List.replicate 8 (0x0101010101010101#64), deficits := [], lastTenant := 63,
    merge := [], stallcfg := 0, frozen := [], busySince := [], hangs := [], ridge := Ridge.reset, adpcfg := 0,
    rqPeak := 0, engine := [], kvdir := 0, kvq := [], gathers := [], cows := [], pubs := [], cursors := [], seqs := [], scancfg := 0,
    scanq := [] }
/-- The requests to a die's KV block engine that have still to answer (R363, R374). -/
def Die.kvOpenReqs (d : Die) : List KvReq := d.kvq ++ d.gathers ++ d.cows.map (fun w => w.req) ++ d.pubs.map fun p => p.req
/-- A die. -/
def State.die (s : State) (d : Nat) : Die := (s.dies.find? d).getD Die.reset
/-- The state with a die changed by a function. -/
def State.onDie (s : State) (d : Nat) (f : Die → Die) : State := { s with dies := s.dies.put d (f (s.die d)) }

/-- The operator slot an operator number names on a die, if BOUND or CLOSING (R211, R213). -/
def Die.op? (d : Die) (n : Nat) : Option OpSlot := d.ops.find? n
/-- The die of a core: 640 + 2d + k is PCk of die d (R7, R112). -/
def dieOf (core : Nat) : Nat := if core < 640 then core / 160 else (core - 640) / 2
/-- The cluster of a core, numbered die × 10 + cluster; none for a pager-corner core (R112). -/
def clusterOf (core : Nat) : Option Nat := if core < 640 then some (core / 16) else none
/-- The package number (R435). -/
def State.pkg (s : State) : Nat := bits s.pkgcfg.toNat 49 40
/-- A lane's fid (R294); bits above the fifth of a group number only tell a saved group from a resident one (R330). -/
def State.fid (s : State) (core gid lane : Nat) : Nat := s.pkg * 2 ^ 20 + core * 2 ^ 10 + gid % 32 * 2 ^ 5 + lane
/-- The fibre hash of a fid (R294). -/
def hashOf (fid : Nat) : Nat := (fid % 65536) ^^^ (fid / 65536 % 65536)

/-- An opaque choice is drawn with a counter that never repeats (log 2). -/
def State.draw (s : State) : State := { s with free := s.free + 1 }

/-- The operator of a group, if its OPID names a BOUND or CLOSING one. -/
def State.opOf (s : State) (core : Nat) (x : Group) : Option OpSlot := (s.die (dieOf core)).op? x.opid

/-! ### Clocks (R294, R308) -/

/-- Serial comparison of 40-bit stamps (R308). -/
def stampLt (a b : Nat) : Bool :=
  let d := (2 ^ 40 - a % 2 ^ 40 + b) % 2 ^ 40
  decide (1 ≤ d) && decide (d ≤ 2 ^ 39 - 1)
/-- The higher of two stamps. -/
def stampMax (a b : Nat) : Nat := if stampLt a b then b else a
/-- The stamp after one (R295). -/
def stampNext (a : Nat) : Nat := (a + 1) % 2 ^ 40
/-- The effect of an acquire of a published stamp on a lane (R298). -/
def Lane.acquire (l : Lane) (v : Nat) : Lane := let h := stampMax l.h v; { l with h := h, c := stampMax l.c h }

/-- clock(x) of R295. -/
def SectorMeta.clock (m : SectorMeta) : Nat := stampMax m.w m.r

/-! ### Main memory (R261 to R264) -/

/-- n bytes of main memory, little-endian (R3). -/
def State.read (s : State) (pa n : Nat) : Nat := getBytes s.mem pa n
/-- n bytes stored to main memory. -/
def State.write (s : State) (pa n v : Nat) : State := { s with mem := putBytes s.mem pa n v }
/-- Those bytes of n whose mask bit is set, stored to main memory. -/
def State.writeMasked (s : State) (pa n v mask : Nat) : State := { s with mem := putMasked s.mem pa n v mask }

/-- Whether a physical address is host memory (R261). -/
def isHost (pa : Nat) : Bool := pa.testBit 51
/-- The package of an address of domain memory (R261). -/
def pkgOf (pa : Nat) : Nat := bits pa 50 41
/-- The offset in the package region (R261). -/
def ofsOf (pa : Nat) : Nat := pa % 2 ^ 41
/-- Whether an address lies in this package's HBM (R262). -/
def State.isHbm (s : State) (pa : Nat) : Bool := !isHost pa && pkgOf pa == s.pkg && decide (ofsOf pa < 2 ^ 40)
/-- Whether an address lies in this package's on-chip map (R262). -/
def State.isOnChip (s : State) (pa : Nat) : Bool :=
  !isHost pa && pkgOf pa == s.pkg && decide (2 ^ 40 ≤ ofsOf pa) && decide (ofsOf pa < 2 ^ 40 + 648 * 2 ^ 21)
/-- Whether an address lies in this package's management region (R262, R435). -/
def State.isMgmt (s : State) (pa : Nat) : Bool :=
  !isHost pa && pkgOf pa == s.pkg && decide (0x010100000000 ≤ ofsOf pa) && decide (ofsOf pa < 0x010101000000)
/-- Whether an address lies in the on-chip map or the management region of some package (R262). -/
def beyondHbm (pa : Nat) : Bool := !isHost pa && decide (2 ^ 40 ≤ ofsOf pa)
/-- Whether an address lies in another package's region. -/
def State.isPeer (s : State) (pa : Nat) : Bool := !isHost pa && pkgOf pa != s.pkg
/-- The die of an HBM address (R262). -/
def dieOfPa (pa : Nat) : Nat := ofsOf pa / 2 ^ 38
/-- Whether start-up removed a cluster, numbered die × 10 + cluster (R435). -/
def State.isRemoved (s : State) (c : Nat) : Bool := s.removed.toNat.testBit c
/-- The first cluster that is not removed, from one on, wrapping within ten (R264). -/
def State.nextCluster (s : State) (die : Nat) : Nat → Nat → Option Nat
  | 0, _ => none
  | n + 1, c => if s.isRemoved (die * 10 + c) then s.nextCluster die n ((c + 1) % 10) else some (die * 10 + c)
/-- f of R264, by which an HBM address finds its cluster. -/
def ownerHash (pa : Nat) : Nat :=
  let b := pa % 2 ^ 38 / 4096
  b ^^^ (b / 2 ^ 10) ^^^ (b / 2 ^ 20)
/-- The owning cluster of an HBM address, numbered die × 10 + cluster (R264). -/
def State.owner (s : State) (pa : Nat) : Option Nat := s.nextCluster (dieOfPa pa) 10 (ownerHash pa % 10)
/-- The slice of an HBM address within its cluster (R264). -/
def sliceOf (pa : Nat) : Nat := let o := pa % 2 ^ 38; bits o 8 7 ^^^ bits o 13 12
/-- The HBM channel of an address (R264). -/
def channelOf (pa : Nat) : Nat := let o := pa % 2 ^ 38; ((o / 2 ^ 7) ^^^ (o / 2 ^ 14) ^^^ (o / 2 ^ 21)) % 128
/-- The PSL port on which accesses to a line of another package leave, if one is up and PSL is enabled (R441, R442): of the ports
that are up, in ascending order, the one whose place is the line's number modulo their count. -/
def State.portFor (s : State) (pa : Nat) : Option Nat :=
  if !s.pkgcfg.toNat.testBit 0 then none
  else
    let us := (List.range 18).filter s.pslstat.toNat.testBit
    us[pa / 128 % us.length]?
/-- Whether some PSL port of the package is up (R327, R442). -/
def State.somePort (s : State) : Bool := (List.range 18).any s.pslstat.toNat.testBit
/-- Whether an offset lies in a range of a package region (R262). -/
def inRange (ofs : Nat) : Bool :=
  decide (ofs < 2 ^ 40 + 648 * 2 ^ 21) || (decide (0x010100000000 ≤ ofs) && decide (ofs < 0x010101000000))

/-- Whether an address has backing (R262, R264, R441, R442). -/
def State.backed (s : State) (pa : Nat) : Bool :=
  if isHost pa then true
  else if pkgOf pa = s.pkg then
    (s.isHbm pa && (s.owner pa).isSome) || s.isOnChip pa || s.isMgmt pa
  else inRange (ofsOf pa) && (s.portFor pa).isSome
/-- The ordering point of an address: the die whose settle floor and window its sector uses. -/
def State.homeDie (s : State) (pa : Nat) : Nat := if s.isHbm pa then dieOfPa pa else 0

/-! ### Translation (R268 to R274, R277) -/

/-- Why a translation fails: the CAUSE of R277 and the intermediate address of a stage-2 cause. -/
structure XFail where
  cause : Nat
  ipa : Nat
deriving DecidableEq, Repr

/-- A leaf found by a walk of one stage. -/
structure Leaf where
  /-- The output address of the first byte the leaf covers, and log2 of the bytes it covers. -/
  base : Nat
  size : Nat
  fold : Bool
  /-- Level 0, 1 or 2. -/
  level : Nat
  /-- Bits [9:2] of the entry: R, W, X, U, A, D, CONT, REPL. -/
  attr : Nat
  /-- The physical address of the entry. -/
  pa : Nat
deriving DecidableEq, Repr

/-- Whether a present entry breaks R269 at a level. -/
def badEntry (level e : Nat) : Bool :=
  bits e 55 52 != 0 || bit e 12 ||
  (if bit e 1 then
     level == 3 || (level == 1 && bits e 22 13 != 0) || (level == 2 && bits e 32 13 != 0)
   else level == 0 || bits e 9 2 != 0 || bits e 63 56 != 0)

/-- The sectors of n bytes. -/
def sectorsOf (pa n : Nat) : List Nat := (List.range ((pa + n + 31) / 32 - pa / 32)).map fun i => pa / 32 + i
/-- Whether n bytes hold uncorrectable data (R444). -/
def State.poisoned (s : State) (pa n : Nat) : Bool := (sectorsOf pa n).any fun x => s.poison.contains x

/-- A table's n bytes as a walk or a unit without lanes reads them: uncorrectable ones are free (log 35). -/
def State.tableRead (s : State) (pa n : Nat) : Nat :=
  if s.poisoned pa n then Config.badData s.free pa % 256 ^ n else s.read pa n

/-- The aligned group of 32 entries that holds one, folded under R271: the frame of its first entry. -/
def State.foldBase (s : State) (entryPa level : Nat) : Option Nat :=
  let first := entryPa / 256 * 256
  let e0 := s.tableRead first 8
  let k := if level = 0 then 13 else 23
  let frame (e : Nat) : Nat := bits e 51 13 * 2 ^ 13
  if (List.range 32).all (fun i =>
      let e := s.tableRead (first + 8 * i) 8
      bit e 0 && bit e 1 && bit e 8 && bits e 11 2 == bits e0 11 2 && frame e == frame e0 + i * 2 ^ k)
     && frame e0 % 2 ^ (k + 5) == 0
  then some (frame e0) else none

/-- A walk of one stage from a table down (R268, R269). `tr` turns an address the stage names into a physical one. -/
def State.walk (s : State) (tr : Nat → Except XFail Nat) (va : Nat) : Nat → Nat → Except XFail Leaf
  | fuel, table =>
    match tr table with
    | .error f => .error f
    | .ok tpa =>
      if !s.backed tpa then .error ⟨6, 0⟩
      else
        let level := fuel
        let lo := 13 + 10 * level
        let epa := tpa + 8 * bits va (lo + 9) lo
        let e := s.tableRead epa 8
        if !bit e 0 then .error ⟨0, 0⟩
        else if badEntry level e then .error ⟨5, 0⟩
        else if bit e 1 then
          let frame := bits e 51 13 * 2 ^ 13
          match (if bit e 8 && level < 2 then s.foldBase epa level else none) with
          | some b => .ok ⟨b, lo + 5, true, level, bits e 9 2, epa⟩
          | none => .ok ⟨frame, lo, false, level, bits e 9 2, epa⟩
        else
          match fuel with
          | 0 => .error ⟨5, 0⟩
          | n + 1 => s.walk tr va n (bits e 51 13 * 2 ^ 13)

/-- The stage-2 walk of an intermediate address (R272); its causes carry bit 7 and the address (R277). -/
def State.walk2 (s : State) (vmroot : Nat) (ipa : Nat) : Except XFail Leaf :=
  match s.walk (fun a => .ok a) ipa 3 (bits vmroot 51 13 * 2 ^ 13) with
  | .error f => .error ⟨0x80 + f.cause, ipa⟩
  | .ok l => .ok l

/-- The address a leaf gives for one it covers. -/
def Leaf.at (l : Leaf) (a : Nat) : Nat := l.base + a % 2 ^ l.size
/-- log2 of what one leaf of a group covers. -/
def Leaf.step (l : Leaf) : Nat := if l.fold then l.size - 5 else l.size
/-- The address of the leaf for the first page of 2^size bytes around an address. -/
def Leaf.first (l : Leaf) (size a : Nat) : Nat := l.pa - 8 * (a % 2 ^ size / 2 ^ l.step)
/-- The leaves whose D bit is set, all or none: a folded group's are equal (R271). -/
def Leaf.dirties (l : Leaf) : Nat := if bit l.attr 5 then 2 ^ 32 - 1 else 0

/-- A walk of both stages: the TLB entry it would install (R271 to R273). -/
def State.walkBoth (s : State) (ptroot vmroot va : Nat) : Except XFail TlbEntry :=
  let en := bit vmroot 12
  let tr (a : Nat) : Except XFail Nat :=
    if en then (s.walk2 vmroot a).map (fun l => l.at a) else .ok a
  match s.walk tr va 3 (bits ptroot 51 13 * 2 ^ 13) with
  | .error f => .error f
  | .ok l1 =>
    let ipa := l1.at va
    let mk (size pa rights2 : Nat) (repl fold : Bool) (l2 : Option Leaf) : TlbEntry :=
      { asid := bits ptroot 11 0, vmid := bits vmroot 11 0, va := va / 2 ^ size * 2 ^ size, size := size,
        pa := pa / 2 ^ size * 2 ^ size, ipa := ipa / 2 ^ size * 2 ^ size, rights1 := l1.attr % 8, rights2 := rights2,
        u := bit l1.attr 3, repl := repl, fold := fold, leaf := l1.level, leafPa := l1.first size va, step := l1.step,
        leafPa2 := l2.map fun l => l.first size ipa, step2 := l2.elim 0 Leaf.step, dirty := l1.dirties, dirty2 := l2.elim 0 Leaf.dirties }
    if en then
      match s.walk2 vmroot ipa with
      | .error f => .error f
      | .ok l2 => .ok (mk (min l1.size l2.size) (l2.at ipa) (l2.attr % 8) (bit l2.attr 7) (l1.fold && l2.fold) (some l2))
    else .ok (mk l1.size ipa 7 (bit l1.attr 7) l1.fold none)

/-- What an access needs of a leaf (R270). -/
inductive Need
  | load | store | atomic | fetch
deriving DecidableEq, Repr

/-- The right a set of rights lacks for an access, as a CAUSE (R277): READ, then WRITE, or EXEC. -/
def lacks (rights : Nat) : Need → Option Nat
  | .load => if bit rights 0 then none else some 1
  | .store => if bit rights 1 then none else some 2
  | .atomic => if !bit rights 0 then some 1 else if bit rights 1 then none else some 2
  | .fetch => if bit rights 2 then none else some 3

/-- Whether an entry covers an address of a space. -/
def TlbEntry.covers (e : TlbEntry) (asid vmid va : Nat) : Bool :=
  e.asid == asid && e.vmid == vmid && va / 2 ^ e.size == e.va / 2 ^ e.size

/-- The physical address an entry gives. -/
def TlbEntry.at (e : TlbEntry) (va : Nat) : Nat := e.pa + va % 2 ^ e.size

/-- The replica of a die (R284). -/
def replicaOf (pa die : Nat) : Nat := pa + die * 2 ^ 38

/-- Where an access of a die through an entry goes (R284): a load of a replicated page to the die's own replica. -/
def TlbEntry.place (e : TlbEntry) (need : Need) (die va : Nat) : Nat :=
  if e.repl ∧ need = .load then replicaOf (e.at va) die else e.at va

/-- Whether the frames that an access through an entry uses have backing (R262, R264): those of all replicas, for a store to a
replicated page (R284). -/
def State.placed (s : State) (e : TlbEntry) (need : Need) (die va : Nat) : Bool :=
  if e.repl && decide (need = .store) then [0, 1, 2, 3].all fun d => s.backed (replicaOf (e.at va) d) else s.backed (e.place need die va)

/-- Whether the mode, and what makes the access, keep it from an address: U-mode lanes reach neither the on-chip map nor the management
region; the map is reached by copy engines alone (R168, R270). -/
def State.barred (s : State) (mode : Mode) (map : Bool) (pa : Nat) : Bool :=
  (decide (mode = .u) && beyondHbm pa) || (!map && beyondHbm pa && !s.isMgmt pa)

/-- The permission check of an entry (R270, R277, R284): the FORMAT of an atomic through a replicated leaf, in the stage that the leaf
belongs to; USER; the right; ADDR. `map` says that a copy engine makes the access, for which the on-chip map is open. -/
def State.permit (s : State) (e : TlbEntry) (mode : Mode) (need : Need) (va die : Nat) (map : Bool) : Except XFail Nat :=
  let pa := e.place need die va
  let ipa := e.ipa + va % 2 ^ e.size
  if e.repl && decide (need = .atomic) then .error (if e.leafPa2.isSome then ⟨0x85, ipa⟩ else ⟨5, 0⟩)
  else if decide (mode = .u) && !e.u then .error ⟨4, 0⟩
  else
    match lacks e.rights1 need with
    | some c => .error ⟨c, 0⟩
    | none =>
      match lacks e.rights2 need with
      | some c => .error ⟨0x80 + c, ipa⟩
      | none => if !s.placed e need die va || s.barred mode map pa then .error ⟨6, 0⟩ else .ok pa

/-- The roots of a context slot of a core (R272). -/
def Core.roots (k : Core) (slot : Nat) : Nat × Nat :=
  (((k.ptroot[slot]?).getD 0).toNat, ((k.vmroot[slot]?).getD 0).toNat)

/-- The entry for an address of a slot: from the core's buffer, the die's, or a walk (R273); with the entry, whether the
core's buffer or the die's held it. -/
def State.lookup (s : State) (core slot va : Nat) : Except XFail (TlbEntry × Bool × Bool) :=
  let k := s.core core
  let (pt, vm) := k.roots slot
  let asid := bits pt 11 0
  let vmid := bits vm 11 0
  match k.tlb.find? (fun e => e.covers asid vmid va) with
  | some e => .ok (e, true, true)
  | none =>
    match (s.die (dieOf core)).ltlb.find? (fun e => e.covers asid vmid va) with
    | some e => .ok (e, false, true)
    | none => (s.walkBoth pt vm va).map fun e => (e, false, false)

/-- A buffer with an entry added; a full one loses an entry the spec does not name (log 12). -/
def tlbInsert (cap victim : Nat) (l : List TlbEntry) (e : TlbEntry) : List TlbEntry :=
  if l.length < cap then l ++ [e] else l.eraseIdx (victim % cap) ++ [e]

/-- The set of a last-level buffer that an entry lies in (R273). -/
def TlbEntry.set (e : TlbEntry) : Nat := Config.tlbSet (e.va / 8192) % 256

/-- A last-level buffer with an entry added to the 12 ways of its set (R273). -/
def ltlbInsert (victim : Nat) (l : List TlbEntry) (e : TlbEntry) : List TlbEntry :=
  let (mine, others) := l.partition fun x => x.set == e.set
  others ++ tlbInsert 12 victim mine e

/-! ### Invalidations under way (R283, R420) -/

/-- Whether a TLBINV removes the translation of an address of a space (R420). -/
def InvalTarget.covers (t : InvalTarget) (asid vmid va : Nat) : Bool :=
  match t.kind with
  | 0 => t.asid == asid && t.vmid == vmid && t.va / 8192 == va / 8192
  | 1 => t.asid == asid && t.vmid == vmid
  | 2 => t.vmid == vmid
  | _ => true

/-- Whether a TLBINV removes the translation of an address of a space as the buffers hold it: one of a page removes every entry over that
page whole (R420). -/
def State.removes (s : State) (t : InvalTarget) (asid vmid va : Nat) : Bool :=
  let both (e : TlbEntry) : Bool := e.covers asid vmid va && e.covers t.asid t.vmid t.va
  t.covers asid vmid va ||
  (t.kind == 0 && ((s.cores.any fun k => k.2.tlb.any both) || s.dies.any fun d => d.2.ltlb.any both))

/-- Whether an invalidation of an address of a space, given by its roots, has not taken effect yet (R283). -/
def State.invalAt (s : State) (pt vm va : Nat) : Bool := s.invals.any fun i => i.targets.any fun t => s.removes t (bits pt 11 0) (bits vm 11 0) va

/-- Whether an invalidation of an address of a slot has not taken effect yet (R283). -/
def State.invalOn (s : State) (core slot va : Nat) : Bool :=
  let (pt, vm) := (s.core core).roots slot
  s.invalAt pt vm va

/-! ### Memory request slots (R267) -/

/-- The sectors of a line that n bytes take, as a mask. -/
def lineSectors (pa n : Nat) : Nat := maskOf ((sectorsOf pa n).map fun x => x % 4)

/-- Whether the sectors of n bytes stand in their slice. -/
def State.inSlice (s : State) (pa n : Nat) : Bool :=
  s.isHbm pa && (s.die (dieOfPa pa)).slices.any fun l => l.line == pa / 128 && lineSectors pa n &&& l.valid == lineSectors pa n

/-- The request that an access shares with the other lanes of its instruction on its line (R273): core, group, SEQNO, line. -/
def Access.line (a : Access) : Nat × Nat × Nat × Nat := (a.core, a.gid, a.seqno, a.pa / 128)

/-- The requests that hold slots of a channel of a die (R267). -/
def State.slotLines (s : State) (die ch : Nat) : List (Nat × Nat × Nat × Nat) :=
  (s.accesses.filter fun a => a.stage == .granted && s.isHbm a.pa && dieOfPa a.pa == die && channelOf a.pa == ch).foldl (fun l a =>
    if l.contains a.line then l else l ++ [a.line]) []

/-- Slots held of a channel of a die (R267). -/
def State.slotsHeld (s : State) (die ch : Nat) : Nat := (s.slotLines die ch).length

/-- The highest count of a channel noted in RQSTAT.PEAK (R267). -/
def State.slotUsed (s : State) (die ch : Nat) : State := s.onDie die fun d => { d with rqPeak := max d.rqPeak (s.slotsHeld die ch) }

/-- Whether n bytes stand in no slice, and their channel has no slot for a request (R267). -/
def State.slotFull (s : State) (pa n : Nat) : Bool :=
  s.isHbm pa && !s.inSlice pa n && decide (1024 ≤ s.slotsHeld (dieOfPa pa) (channelOf pa))

/-- A slot taken and given up within one event for a line of HBM that is read or written (R267). -/
def State.passSlot (s : State) (pa : Nat) : State :=
  if s.isHbm pa then
    s.onDie (dieOfPa pa) fun d => { d with rqPeak := max d.rqPeak (min 1024 (s.slotsHeld (dieOfPa pa) (channelOf pa) + 1)) }
  else s

/-- The slot for a read of n bytes, where they stand in no slice (R267). -/
def State.oneSlot (s : State) (pa n : Nat) : State := if s.inSlice pa n then s else s.passSlot pa

/-- The addresses of the table entries that a walk of one stage reads (R268, R271); `reads` gives those read to find a table. -/
def State.walkReads (s : State) (reads : Nat → List Nat) (tr : Nat → Except XFail Nat) (va : Nat) : Nat → Nat → List Nat
  | fuel, table =>
    reads table ++
    match tr table with
    | .error _ => []
    | .ok tpa =>
      if !s.backed tpa then []
      else
        let epa := tpa + 8 * bits va (22 + 10 * fuel) (13 + 10 * fuel)
        let e := s.tableRead epa 8
        if !bit e 0 || badEntry fuel e then [epa]
        else if bit e 1 then (if bit e 8 && decide (fuel < 2) then [epa, epa / 256 * 256, epa / 256 * 256 + 128] else [epa])
        else match fuel with
          | 0 => [epa]
          | n + 1 => epa :: s.walkReads reads tr va n (bits e 51 13 * 2 ^ 13)

/-- The addresses of the table entries that a walk of both stages reads (R272). -/
def State.walkLines (s : State) (pt vm va : Nat) : List Nat :=
  let en := bit vm 12
  let second (a : Nat) : List Nat := if en then s.walkReads (fun _ => []) (fun a => .ok a) a 3 (bits vm 51 13 * 2 ^ 13) else []
  let tr (a : Nat) : Except XFail Nat := if en then (s.walk2 vm a).map (fun l => l.at a) else .ok a
  let root := bits pt 51 13 * 2 ^ 13
  s.walkReads second tr va 3 root ++ match s.walk tr va 3 root with | .ok l => second (l.at va) | .error _ => []

/-- Whether a translation must wait (R267, R283): for an invalidation of its page, or, where it must be walked, for request slots of the
walker's reads. -/
def State.pageWaits (s : State) (core slot va : Nat) : Bool :=
  let (pt, vm) := (s.core core).roots slot
  s.invalAt pt vm va ||
  match s.lookup core slot va with
  | .ok (_, _, true) => false
  | _ => (s.walkLines pt vm va).any fun p => s.slotFull p 8

/-- A bit of a table entry set by an atomic OR at its owner (R274); no stamp, no record (R307). -/
def State.setEntryBit (s : State) (pa b : Nat) : State :=
  let v := s.read pa 1
  s.write pa 1 (v ||| 2 ^ b)

/-- The place in an entry of the stage-1 leaf of an address, and of the stage-2 leaf. -/
def TlbEntry.index (e : TlbEntry) (va : Nat) : Nat := va % 2 ^ e.size / 2 ^ e.step
@[inherit_doc TlbEntry.index]
def TlbEntry.index2 (e : TlbEntry) (va : Nat) : Nat := va % 2 ^ e.size / 2 ^ e.step2
/-- The stage-1 leaf of an address that an entry covers. -/
def TlbEntry.leafAt (e : TlbEntry) (va : Nat) : Nat := e.leafPa + 8 * e.index va

/-- A set in every leaf that an entry stands for (R274). -/
def State.markUsed (s : State) (e : TlbEntry) : State :=
  let mark (s : State) (first step : Nat) : State := (List.range (2 ^ (e.size - step))).foldl (fun s i => s.setEntryBit (first + 8 * i) 6) s
  let s := mark s e.leafPa e.step
  e.leafPa2.elim s fun p => mark s p e.step2

/-- An entry that a walk for an address of a space gives installed in a die's last-level buffer, with A set (R273, R274); the walker's
reads have held slots (R267). -/
def State.installDie (s : State) (die pt vm va : Nat) (e : TlbEntry) : State :=
  let s := (s.walkLines pt vm va).foldl (fun s p => s.oneSlot p 8) s
  ((s.markUsed e).onDie die fun d => { d with ltlb := ltlbInsert (Config.tlbVictim s.free) d.ltlb e }).draw

/-- The entry used for an access to an address of a slot installed where it was missing (R273). -/
def State.install (s : State) (core slot va : Nat) (r : TlbEntry × Bool × Bool) : State :=
  let (e, inCore, inDie) := r
  let (pt, vm) := (s.core core).roots slot
  let s := if inDie then s else s.installDie (dieOf core) pt vm va e
  if inCore then s else
    (s.onCore core fun k => { k with tlb := tlbInsert 64 (Config.tlbVictim s.free) k.tlb e }).draw

/-- Whether D is known set in the leaves of an address. -/
def TlbEntry.isDirty (e : TlbEntry) (va : Nat) : Bool := e.dirty.testBit (e.index va) && (e.leafPa2.isNone || e.dirty2.testBit (e.index2 va))

/-- Entries of a buffer with D known set for an address, in the entry that stands for the same pages. -/
def tlbDirty (e : TlbEntry) (va : Nat) (l : List TlbEntry) : List TlbEntry :=
  l.map fun x => if x.asid = e.asid ∧ x.vmid = e.vmid ∧ x.va = e.va ∧ x.size = e.size then
    { x with dirty := x.dirty ||| 2 ^ e.index va, dirty2 := x.dirty2 ||| 2 ^ e.index2 va } else x

/-- The first store through a leaf with D clear sets D in the leaf of its address (R274). -/
def State.setDirtyDie (s : State) (die : Nat) (e : TlbEntry) (va : Nat) : State :=
  if e.isDirty va then s else
    let s := s.setEntryBit (e.leafAt va) 7
    let s := e.leafPa2.elim s fun p => s.setEntryBit (p + 8 * e.index2 va) 7
    s.onDie die fun d => { d with ltlb := tlbDirty e va d.ltlb }

@[inherit_doc State.setDirtyDie]
def State.setDirty (s : State) (core : Nat) (e : TlbEntry) (va : Nat) : State :=
  if e.isDirty va then s else
    (s.setDirtyDie (dieOf core) e va).onCore core fun k => { k with tlb := tlbDirty e va k.tlb }

/-- An address of a slot in a mode translated without any effect. -/
def State.translate (s : State) (core slot : Nat) (mode : Mode) (need : Need) (va : Nat) : Except XFail Nat :=
  match s.lookup core slot va with
  | .error f => .error f
  | .ok (e, _, _) => s.permit e mode need va (dieOf core) false

/-! ### Fetch lines (R48 to R50) -/

/-- Whether the low bits of a PC are legal (R48). -/
def pcLegal (pc : Pc) : Bool := [4, 16, 28, 40, 52].contains (pc.toNat % 64)
/-- The slot of a PC (R48). -/
def slotOf (pc : Pc) : Nat := (pc.toNat % 64 - 4) / 12
/-- The next sequential PC (R48). -/
def nextPc (pc : Pc) : Pc :=
  if slotOf pc < 4 then pc + 12 else BitVec.ofNat 53 (pc.toNat - pc.toNat % 64 + 64 + 4)
/-- The virtual address of a PC's line. -/
def lineOf (pc : Pc) : Nat := pc.toNat - pc.toNat % 64

/-- The physical address of the line at a PC, if it can be translated and fetched without a fault or an error. -/
def State.fetchLine (s : State) (core slot : Nat) (mode : Mode) (pc : Pc) : Option Nat :=
  match s.translate core slot mode .fetch (lineOf pc) with
  | .ok pa => if s.poisoned pa 64 then none else some pa
  | .error _ => none

/-- Whether the TGT bit of a PC's slot is set in its line (R49, R50). -/
def State.tgtSet (s : State) (linePa : Nat) (pc : Pc) : Bool := bit (s.read linePa 4) (slotOf pc)

/-! ### Fault records (R277, R278) -/

/-- A fault record waits to be written (R278). -/
def State.postFault (s : State) (die : Nat) (r : FaultRec) : State := s.onDie die fun d => { d with faults := d.faults ++ [r] }

/-! ### Masks (R87) -/

/-- The highest of some stamps, if there is one; stamps compare serially, so no number stands for their absence (R308). -/
def stampOf? : List Nat → Option Nat
  | [] => none
  | a :: r => some (r.foldl stampMax a)

/-- What the arrivals at a mask have released: the highest clock of the lanes that have arrived (R87). -/
def MaskReg.released (m : MaskReg) : Option Nat := stampOf? ((lanesOf m.arr).filterMap m.stamps.find?)

/-- The arrival of lanes, each with the clock it releases (R87). -/
def MaskReg.arrive (m : MaskReg) (ls : List Nat) (clock : Nat → Nat) : MaskReg :=
  { m with arr := m.arr ||| maskOf ls, stamps := ls.foldl (fun t l => t.put l (clock l)) m.stamps }

/-- A lane resumes after its WAITM, as an acquire of the arrivals (R87). -/
def Lane.passMask (k : Lane) (v : Option Nat) : Lane := { (v.elim k k.acquire) with wait := .none, pc := nextPc k.pc }

/-- The release of a mask, if R87 requires it: every waiter resumes after its WAITM as an acquire of every arrival. -/
def Group.releaseMask (x : Group) (k : Nat) : Group :=
  let m := x.mask k
  let waiters := x.live.filter fun l => (x.lane l).wait == .waitm k
  if (m.enrol != 0 && m.arr == m.enrol) || (m.enrol == 0 && !waiters.isEmpty) then
    (x.onLanes waiters fun _ l => l.passMask m.released).setMask k { m with arr := 0 }
  else x

/-- A lane removed from both sets of a mask, and the mask released if R87 requires it. -/
def Group.leaveMask (x : Group) (k l : Nat) : Group :=
  let m := x.mask k
  let clear (v : Nat) : Nat := if v.testBit l then v - 2 ^ l else v
  (x.setMask k { m with enrol := clear m.enrol, arr := clear m.arr, sig := clear m.sig }).releaseMask k

/-- A lane's bit cleared in a mask word. -/
def clearBit (v l : Nat) : Nat := if v.testBit l then v - 2 ^ l else v

/-! ### Traps (R408 to R413) -/

/-- TSTATE (R340). -/
def Tx.word (t : Tx) : Nat :=
  t.active.toNat * 2 ^ 31 + t.irrev.toNat * 2 ^ 30 + t.depth * 2 ^ 26 + t.count * 2 ^ 22 + t.wide.toNat * 2 ^ 17 +
  t.deny.toNat * 2 ^ 16 + t.ucode * 2 ^ 8 + t.trapk * 2 ^ 4 + t.code

/-- TSTATE.TRAPK of a trap kind (R340). -/
def trapkOf : Nat → Nat
  | 5 => 2 | 6 => 3 | 7 => 4 | 13 => 5 | 10 => 6 | 11 => 7 | 12 => 8 | 14 => 9 | 19 => 10 | 20 => 11 | _ => 12

/-- WINSIZE (R106). -/
def Group.winsize (x : Group) : Nat := 32 * x.window.length

/-- The word of Vn of a lane written; a write replaces a word whose parity fails. -/
def Group.setV (x : Group) (n l v : Nat) : Group :=
  { x with v := sput x.v (32 * n + l) (BitVec.ofNat 32 v), badV := x.badV.filter fun k => k != 32 * n + l }

/-- A 32-bit result written for one lane to a register field; an S register takes it zero-extended (R62). -/
def Group.put32 (x : Group) (o : Operand) (l v : Nat) : Group :=
  match o with
  | .v n => if n.val < x.winsize then x.setV n.val l v else x
  | .s n => { x with s := sput x.s n.val (BitVec.ofNat 64 (v % 2 ^ 32)) }
  | _ => x

/-- The abort of a transactional lane (R331): logs emptied, TSTATE to the recorded register, the lane at its target. -/
def Group.abortTx (x : Group) (l code : Nat) (upd : Tx → Tx) : Group :=
  let t := (x.lane l).tx
  let t' := upd { t with active := false, irrev := false, depth := 0, code := code, count := min (t.count + 1) 15, reads := [],
                         writes := [], validating := none, faulted := false }
  let x := x.put32 t.dest l t'.word
  x.onLane l fun k => { k with tx := { t' with dest := .none }, pc := t.target, wait := .none }

/-- Outstanding accesses of a transactional lane dropped at its abort. -/
def State.dropTx (s : State) (core gid l : Nat) : State :=
  { s with accesses := s.accesses.filter fun a => !(a.core == core && a.gid == gid && a.lane == l && a.tx) }

/-- The abort of a transactional lane (R331, R333). -/
def State.abortTx (s : State) (core gid l code : Nat) (upd : Tx → Tx) : State :=
  (s.dropTx core gid l).onGroup core gid fun x => x.abortTx l code upd

/-- A mode's number in PMODE (R418). -/
def Mode.code : Mode → BitVec 2
  | .u => 0
  | .s => 1
  | .h => 2
/-- The mode that PMODE names. -/
def modeOf (n : Nat) : Mode := match n with | 0 => .u | 1 => .s | _ => .h

/-- The mode a trap of a kind goes to (R410). -/
def trapMode (hdeleg : Long) (mode : Mode) (kind : Nat) : Mode :=
  if kind = 22 ∨ kind = 23 ∨ kind = 24 ∨ hdeleg.toNat.testBit kind ∨ mode = .h then .h else .s

/-- The vector of a kind (R410). -/
def Core.vector (k : Core) (slot : Nat) (m : Mode) (kind : Nat) : Pc :=
  let base := if m = .h then k.hvec else (k.svec[slot]?).getD 0
  BitVec.ofNat 53 (base.toNat + 64 * kind + 4)

/-- Whether a vector passes R48, its line can be translated and fetched, and its TGT bit is set (R411). -/
def State.vectorOk (s : State) (core slot : Nat) (m : Mode) (v : Pc) : Bool :=
  pcLegal v &&
  match s.fetchLine core slot m v with
  | some pa => s.tgtSet pa v
  | none => false

/-- What a trap says of itself: kind, cause, return PC, TVAL, TINFO, and the access a kind 18 or 19 is about (R409). -/
structure TrapInfo where
  kind : Nat
  cause : Nat
  tpc : Pc
  tval : Nat
  tinfo : Nat
  access : Option Nat
deriving DecidableEq, Repr

/-- The record id of the row a lane serves, or 0xFFFF_FFFF (R206, R222). -/
def Group.rowid (x : Group) (die l : Nat) : Nat :=
  match x.tile[l]? with
  | some (.held r) => die * 2 ^ 20 + r
  | some (.gone r) => die * 2 ^ 20 + r
  | _ => 0xFFFFFFFF

/-- The race report of an access (R310), 64 bytes little-endian. -/
def raceReport (a : Access) (rowid : Nat) : Nat :=
  let (other, hash, omask, kind) := a.race.getD (0, 0, 0, 0)
  let smask := ((2 ^ a.size - 1) &&& a.mask) * 2 ^ (a.pa % 32)
  a.va + a.pc.toNat * 2 ^ 64 + a.seqno * 2 ^ 128 + smask % 2 ^ 32 * 2 ^ 160 + a.c * 2 ^ 192 + a.h * 2 ^ 256 +
  (other + hash * 2 ^ 40) * 2 ^ 320 + omask * 2 ^ 384 + kind * 2 ^ 416 + a.lane * 2 ^ 424 + a.core * 2 ^ 432 +
  rowid * 2 ^ 448

/-- A lane takes a trap (R411). A vector whose TGT bit is clear fails as R411 says, with the machine check or the halt VECTOR; the
branch-target trap at the target, which R50 names for a vector entry, is not raised (log 60). -/
def State.enterTrap (s : State) (core gid l : Nat) (t : TrapInfo) : State :=
  let k := s.core core
  let x := s.group core gid
  let ln := x.lane l
  let slot := x.slot
  let halt (r : HaltReason) : State := s.onLane core gid l fun k => { k with halted := some r }
  if ln.tx.active && !ln.tx.irrev then
    let code := if t.kind = 0 ∨ t.kind = 22 then 4 else 5
    s.abortTx core gid l code fun x =>
      if code = 5 then { x with trapk := trapkOf t.kind, deny := decide (t.kind = 13 ∧ t.cause = 2) } else x
  else
    let push (m : Mode) (v : Pc) (kind tinfo : Nat) : State :=
      if ln.traps.length ≥ 4 then halt .overflow
      else
        let area := ((k.tarea[slot]?).getD 0).toNat
        let addr := bits area 51 18 * 2 ^ 18 + ((gid * 32 + l) * 4 + ln.traps.length) * 64
        let report := kind = 18 ∧ bit area 0
        let tinfo := if kind = 18 then (if bit area 0 then addr else 0) else tinfo
        let s := if report then
            match t.access.bind (fun i => s.accesses.find? (fun a => a.id == i)) with
            | some a => s.write addr 64 (raceReport a (x.rowid (dieOf core) l))
            | none => s
          else s
        s.onLane core gid l fun k =>
          { k with traps := ⟨t.tpc, k.mode.code, k.pred, kind, t.cause, t.tval, tinfo, t.access⟩ :: k.traps, mode := m, pc := v,
                   startCheck := false }
    let m := trapMode k.hdeleg ln.mode t.kind
    let v := k.vector slot m t.kind
    if s.vectorOk core slot m v then push m v t.kind t.tinfo
    else if m = .h then halt .vector
    else
      let v := k.vector slot .h 23
      if s.vectorOk core slot .h v then push .h v 23 t.kind else halt .vector

/-- Several lanes take traps, in ascending order; each lane's own information. -/
def State.enterTraps (s : State) (core gid : Nat) (t : Nat → TrapInfo) : List Nat → State
  | [] => s
  | l :: ls => (s.enterTrap core gid l (t l)).enterTraps core gid t ls

/-- A lane pops its trap stack (R413): the PC, mode and predicate word of the top entry. -/
def Lane.popTrap (k : Lane) : Lane :=
  match k.traps with
  | [] => k
  | e :: r => { k with traps := r, pc := e.tpc, mode := modeOf e.pmode.toNat, pred := e.tpred ||| 0x8000#16 }

/-- Whether every live lane waits in WAITM (R89). -/
def Group.deadlocked (x : Group) : Bool :=
  !x.live.isEmpty && x.live.all fun l => match (x.lane l).wait with | .waitm _ => true | _ => false

/-- The group-wait deadlock trap made pending for all of the group's lanes (R89, R412); their waits end without effect. -/
def Group.raiseDeadlock (x : Group) : Group :=
  if x.deadlocked then
    x.onLanes x.live fun _ k => { k with wait := .none, pend := k.pend ++ [⟨9, 0, 0, 0, none, some k.pc⟩] }
  else x

/-! ### Credits (R78, R79, R85) -/

/-- SHARE of a slot (R78). -/
def Core.shareOf (k : Core) (slot : Nat) : Nat := max 1 (min 16 (bits ((k.slotcfg[slot]?).getD 0).toNat 20 16))
/-- PRIO of a slot (R78). -/
def Core.prioOf (k : Core) (slot : Nat) : Nat := bits ((k.slotcfg[slot]?).getD 0).toNat 3 0
/-- eff(k) of R79. -/
def Core.eff (k : Core) (slot : Nat) : Nat :=
  (List.range (slot + 1)).foldl (fun (r : Nat × Nat) j => let e := min (k.shareOf j) (64 - r.1); (r.1 + e, e)) (0, 0) |>.2

/-- A credit in a clk: it grows by eff in every one, up to 64 (R85). -/
def Core.creditAt (k : Core) (now pipe slot : Nat) : Nat :=
  min (((k.credits.find? (4 * pipe + slot)).getD 0).toNat + (now + 2 ^ 64 - k.creditClk) % 2 ^ 64 * k.eff slot) 64

/-- A core whose credits are those of a clk (R85). -/
def Core.settleCredits (k : Core) (now : Nat) : Core :=
  { k with credits := (List.range 16).map fun i => (i, BitVec.ofNat 7 (k.creditAt now (i / 4) (i % 4))), creditClk := now }

/-! ### Releases (R298 to R300, R303) -/

/-- Whether an address is memory of this package. -/
def State.isOwn (s : State) (pa : Nat) : Bool := !isHost pa && pkgOf pa == s.pkg

/-- Whether an access that a die's portal has accepted, and that is not performed, stands before what the die does at an address beyond the
package (R303). -/
def State.portalBusy (s : State) (die pa : Nat) : Bool :=
  !s.isOwn pa && s.accesses.any fun b =>
    b.stage == .granted && !s.isOwn b.pa && dieOf b.core == die && isHost b.pa == isHost pa && (isHost pa || pkgOf b.pa == pkgOf pa)

/-- Whether a release of a lane need not wait for an access (R303): at scopes CORE and CLUSTER, one that a portal has
accepted; copies of ACP and ACPS are no accesses of the lane. -/
def State.letsRelease (s : State) (scope : Nat) (a : Access) : Bool :=
  match a.kind with
  | .acpIn _ _ => true
  | .acpOut _ => true
  | _ => decide (scope < 2) && a.stage == .granted && !s.isOwn a.pa

/-- Whether every earlier access of some lanes is performed and has replied, as a release waits for it (R298, R303). -/
def State.mayRelease (s : State) (core gid scope : Nat) (ls : List Nat) : Bool :=
  s.accesses.all fun a =>
    !(a.core == core && a.gid == gid && ls.contains a.lane && !a.orphan) || s.letsRelease scope a

/-! ### Core and cluster barriers (R92) -/

/-- A lane released from a barrier: an acquire, and on to the next instruction. -/
def Lane.passBarrier (k : Lane) (v : Nat) : Lane := { k.acquire v with wait := .none, pc := nextPc k.pc }

/-- Whether a lane waits at a core barrier whose phase is over. -/
def Lane.passesCbar (k : Lane) (id phase : Nat) : Bool :=
  match k.wait with | .cbar i _ p => i == id && p != phase | _ => false
/-- Whether a lane waits at a cluster barrier whose phase is over. -/
def Lane.passesKbar (k : Lane) (id phase : Nat) : Bool :=
  match k.wait with | .kbar i _ p => i == id && p != phase | _ => false

/-- The lanes of a group that meet a condition pass a barrier. -/
def Group.passBarrier (x : Group) (past : Lane → Bool) (v : Nat) : Group :=
  x.onLanes (x.live.filter fun l => past (x.lane l)) fun _ k => k.passBarrier v

/-- A group changed wherever it stands on a core. -/
def Core.mapGroups (k : Core) (f : Group → Group) : Core := { k with groups := k.groups.map fun g => (g.1, f g.2) }

/-- A group's arrival at a barrier: the last one completes the phase, and the count begins anew. -/
def Barrier.arrive (b : Barrier) (uid count clock : Nat) : Barrier :=
  let expected := if b.arrived.isEmpty then count else b.expected
  let clock := if b.arrived.isEmpty then clock else stampMax b.clock clock
  let arrived := b.arrived ++ [uid]
  if arrived.length = expected then ⟨[], 0, b.phase + 1, 0, clock⟩ else ⟨arrived, expected, b.phase, clock, b.passed⟩

/-- An arrival in a phase that a merge is to complete (R378): the last one leaves the phase as it is. -/
def Barrier.gather (b : Barrier) (uid count clock : Nat) : Barrier :=
  let clock := if b.arrived.isEmpty then clock else stampMax b.clock clock
  ⟨b.arrived ++ [uid], if b.arrived.isEmpty then count else b.expected, b.phase, clock, b.passed⟩

/-- The highest C of some lanes. -/
def Group.maxC (x : Group) (ls : List Nat) : Nat := ls.foldl (fun a l => stampMax a (x.lane l).c) ((x.lane (ls.headD 0)).c)

/-- Whose count a group names: that of its lanes, or of one of them where they differ. -/
def State.barrierCount (s : State) (counts : List Nat) : Nat :=
  if counts.all fun n => n == counts.headD 0 then counts.headD 0
  else (counts[Config.barrierLane s.free % counts.length]?).getD 0

/-- The counts that a group's lanes name at one barrier and phase, if all of its live lanes wait there. -/
def Group.countsAt (x : Group) (same : Wait → Option Nat) : Option (List Nat) :=
  let counts := x.live.filterMap fun l => same (x.lane l).wait
  if counts.length = x.live.length then some counts else none

/-- A merge unit without arrivals. -/
def CredUnit.empty : CredUnit := ⟨[], []⟩

/-- A merge's arrival in the phase under way, or held for a later one where its role has arrived already (R378). -/
def Cluster.credArrive (k : Cluster) (key : Nat) (a : CredArrival) : Cluster :=
  let b := (k.kbar.find? key).getD Barrier.reset
  let u := (k.creds.find? key).getD CredUnit.empty
  if u.now.any fun q => q.role == a.role then { k with creds := k.creds.put key { u with held := u.held ++ [a] } }
  else { k with creds := k.creds.put key { u with now := u.now ++ [a] }, kbar := k.kbar.put key (b.gather a.uid a.count a.clock) }

/-- The role that a core has in the operator of a group. -/
def State.roleIn (s : State) (core : Nat) (x : Group) : Nat :=
  ((s.opOf core x).bind fun o => o.roles.findIdx? fun r => r == some core).getD 0

/-- The arrival of a group at a merge (R378). -/
def State.arriveCred (s : State) (core : Nat) (x : Group) (w : Wait) : State :=
  match w, clusterOf core with
  | .cred key count phase ctl dest addr c norm, some cl =>
    let same (v : Wait) : Option Nat := match v with | .cred i n p _ _ _ _ _ => if i = key ∧ p = phase then some n else none | _ => none
    let k := s.cluster cl
    let b := (k.kbar.find? key).getD Barrier.reset
    let u := (k.creds.find? key).getD CredUnit.empty
    if (x.countsAt same).isNone ∨ b.phase ≠ phase ∨ u.now.any (fun q => q.uid == x.uid) ∨ u.held.any (fun q => q.uid == x.uid) then s
    else s.onCluster cl fun k =>
      k.credArrive key ⟨core, x.gid, x.uid, s.roleIn core x, x.slot, count, ctl, dest, addr, c, norm, x.maxC x.live⟩
  | _, _ => s

/-- The arrival of a group at the barrier all of its live lanes wait at (R92). A core of the pager corner belongs to no cluster: at KBAR its
lanes wait and arrive nowhere (log 69). -/
def State.arriveBarrier (s : State) (core gid : Nat) : State :=
  match s.group? core gid with
  | none => s
  | some x =>
    match x.live with
    | [] => s
    | l :: _ =>
      match (x.lane l).wait with
      | .cbar id _ phase =>
        let key := 16 * x.slot + id
        let b := ((s.core core).cbar.find? key).getD Barrier.reset
        match x.countsAt (fun w => match w with | .cbar i n p => if i = id ∧ p = phase then some n else none | _ => none) with
        | none => s
        | some counts =>
          if b.phase ≠ phase ∨ b.arrived.contains x.uid then s
          else (s.onCore core fun k =>
            { k with cbar := k.cbar.put key (b.arrive x.uid (s.barrierCount counts) (x.maxC x.live)) }).draw
      | .kbar id _ phase =>
        match clusterOf core with
        | none => s
        | some cl =>
          let b := ((s.cluster cl).kbar.find? id).getD Barrier.reset
          match x.countsAt (fun w => match w with | .kbar i n p => if i = id ∧ p = phase then some n else none | _ => none) with
          | none => s
          | some counts =>
            if b.phase ≠ phase ∨ b.arrived.contains x.uid then s
            else
              let merges := !(((s.cluster cl).creds.find? id).getD CredUnit.empty).now.isEmpty
              let n := s.barrierCount counts
              (s.onCluster cl fun k =>
                { k with kbar := k.kbar.put id (if merges then b.gather x.uid n (x.maxC x.live) else b.arrive x.uid n (x.maxC x.live)) }).draw
      | w => s.arriveCred core x w

end Sys2Proof.Machine
end

