-- ==== Sys2Proof/Machine/Operands.lean ====
section
/-!
DEFINITION. Register operands (R62, R74, R106, R110, R115): what a field reads and writes, checks 7 to 9 of R69 for the
fields an instruction uses, the scoreboard, and the frame in which every instruction issues.
-/
namespace Sys2Proof.Machine

/-! ### The issuing PC set -/

/-- The PC set that issues (R81) with its active lanes (R54). -/
structure Ctx where
  core : Nat
  gid : Nat
  slot : Nat
  set : List Nat
  act : List Nat
  mode : Mode
  pc : Pc
deriving DecidableEq, Repr

/-- The predicate test of a lane (R54, R74). -/
def Lane.passes (k : Lane) (g : Guard) : Bool := (k.pred ||| 0x8000#16).getLsbD g.ps.val != g.pn

/-- The issuing PC set named by the latch. -/
def State.ctx? (s : State) : Option Ctx :=
  match s.cur with
  | none => none
  | some i =>
    let x := s.group i.core i.gid
    let set := lanesOf i.lanes
    match set with
    | [] => none
    | l :: _ =>
      let k := x.lane l
      some { core := i.core, gid := i.gid, slot := x.slot, set := set, act := set.filter fun l => (x.lane l).passes i.guard,
             mode := k.mode, pc := k.pc }

/-- The issuing group. -/
def State.grp (s : State) (c : Ctx) : Group := s.group c.core c.gid
/-- The issuing group changed. -/
def State.onGrp (s : State) (c : Ctx) (f : Group → Group) : State := s.onGroup c.core c.gid f
/-- The next sequential PC of the issuing set. -/
def Ctx.next (c : Ctx) : Pc := nextPc c.pc
/-- The lowest-numbered active lane; 0 when there is none. -/
def Ctx.low (c : Ctx) : Nat := c.act.headD 0

/-- Every lane of the set moved to the next sequential PC. -/
def State.advance (s : State) (c : Ctx) : State :=
  s.onGrp c fun x => x.onLanes c.set fun _ k => { k with pc := c.next, startCheck := false, again := none }

/-- Lanes of the set moved back to the instruction: they issue it again. -/
def State.retry (s : State) (c : Ctx) (ls : List Nat) : State :=
  s.onGrp c fun x => x.onLanes ls fun _ k => { k with pc := c.pc }

/-! ### Reading -/

/-- The low or whole value of an operand for a lane (R62). -/
def Group.rd (x : Group) (o : Operand) (l : Nat) (wide : Bool) : Nat :=
  match o with
  | .v n =>
    let lo := (sget x.v (32 * n.val + l)).toNat
    if wide then lo + 2 ^ 32 * (sget x.v (32 * (n.val + 1) + l)).toNat else lo
  | .s n => let v := (sget x.s n.val).toNat; if wide then v else v % 2 ^ 32
  | .ct _ => 0
  | .resv _ => 0
  | .const n => wrap (if wide then 64 else 32) ((n.val : Int) - 127)
  | .none => 0

/-- A 32-bit operand. -/
def Group.rd32 (x : Group) (o : Operand) (l : Nat) : Nat := x.rd o l false
/-- A 64-bit operand. -/
def Group.rd64 (x : Group) (o : Operand) (l : Nat) : Nat := x.rd o l true

/-- A packed 32-bit operand: a constant is replicated into each element of w bits (R62, R115). -/
def Group.rdPacked (x : Group) (o : Operand) (l w : Nat) : Nat :=
  match o with
  | .const n => let e := wrap w ((n.val : Int) - 127); (List.range (32 / w)).foldl (fun a i => a + e * 2 ^ (w * i)) 0
  | _ => x.rd o l false

/-- A floating-point operand in a format (R62, R136): a constant stands for the same value in the operand's type. -/
def Group.rdF (x : Group) (f : Fmt) (o : Operand) (l : Nat) : Num :=
  match o with
  | .const n => let i : Int := (n.val : Int) - 127; .fin (decide (i < 0)) i.natAbs 0
  | _ => f.value (x.rd o l false % 2 ^ (f.sign + 1))

/-- Consecutive V registers of a lane as one little-endian number; an S register gives its low bytes. -/
def Group.rdRegs (x : Group) (o : Operand) (l : Nat) : Nat → Nat
  | 0 => 0
  | n + 1 =>
    match o with
    | .v r =>
      x.rdRegs o l n + 2 ^ (32 * n) * (sget x.v (32 * (r.val + n) + l)).toNat
    | _ => x.rd o l (decide (1 ≤ n))

/-! ### Writing -/

/-- A 64-bit result written for one lane. -/
def Group.put64 (x : Group) (o : Operand) (l v : Nat) : Group :=
  match o with
  | .v n =>
    if n.val + 1 < x.winsize then
      (x.setV n.val l v).setV (n.val + 1) l (v / 2 ^ 32)
    else x
  | .s n => { x with s := sput x.s n.val (BitVec.ofNat 64 v) }
  | _ => x

/-- A result of 32 or 64 bits written for one lane. -/
def Group.put (x : Group) (o : Operand) (wide : Bool) (l v : Nat) : Group := if wide then x.put64 o l v else x.put32 o l v

/-- n consecutive V registers written for one lane from a little-endian number; an S register takes up to 8 bytes. -/
def Group.putRegs (x : Group) (o : Operand) (l v : Nat) : Nat → Group
  | 0 => x
  | n + 1 =>
    match o with
    | .v r =>
      let x := x.putRegs o l v n
      if r.val + n < x.winsize then x.setV (r.val + n) l (v / 2 ^ (32 * n)) else x
    | .s _ => x.put64 o l (v % 2 ^ (32 * (n + 1)))
    | _ => x

/-- A destination written in every active lane; an S register takes the value of the lowest active lane (R62). -/
def Group.wr (x : Group) (c : Ctx) (o : Operand) (wide : Bool) (f : Nat → Nat) : Group :=
  match o with
  | .s _ => if c.act.isEmpty then x else x.put o wide c.low (f c.low)
  | .none => x
  | _ => c.act.foldl (fun x l => x.put o wide l (f l)) x

/-- A destination as one lane writes it when its own result comes: an S register is written by the lowest active lane alone (R62). -/
def Ctx.destOf (c : Ctx) (o : Operand) (l : Nat) : Operand :=
  match o with
  | .s _ => if l = c.low then o else .none
  | _ => o

/-- A predicate written for a lane (R74, R111): PT ignores writes. -/
def Lane.setPred (k : Lane) (pd : Option (Fin 15)) (v : Bool) : Lane :=
  match pd with
  | none => k
  | some n =>
    let b : BitVec 16 := 1#16 <<< n.val
    { k with pred := if v then k.pred ||| b else k.pred &&& ~~~b }

/-- A predicate of a lane; none reads 0. -/
def Lane.getPred (k : Lane) (pd : Option (Fin 15)) : Bool :=
  match pd with
  | none => false
  | some n => k.pred.getLsbD n.val

/-- The predicate destination written in every active lane. -/
def Group.wrPred (x : Group) (c : Ctx) (pd : Option (Fin 15)) (f : Nat → Bool) : Group :=
  x.onLanes c.act fun l k => k.setPred pd (f l)

/-! ### The fields an instruction uses (R69 checks 7 and 8) -/

/-- A register field as an instruction uses it: how many V registers it names, whether the first must be even, whether it
is written, and which kinds of operand it admits. -/
structure Use where
  op : Operand
  regs : Nat
  even : Bool
  dst : Bool
  vOk : Bool
  sOk : Bool
  constOk : Bool
  /-- The field names a copy tag (R62, R345): CT0 to CT7 or NONE. -/
  tag : Bool
  noneOk : Bool
deriving DecidableEq, Repr

/-- A 32-bit source. -/
def src32 (o : Operand) : Use := ⟨o, 1, false, false, true, true, true, false, true⟩
/-- A 64-bit source (R62). -/
def src64 (o : Operand) : Use := ⟨o, 2, true, false, true, true, true, false, true⟩
/-- A source of 32 or 64 bits. -/
def srcW (wide : Bool) (o : Operand) : Use := if wide then src64 o else src32 o
/-- A 32-bit destination. -/
def dst32 (o : Operand) : Use := ⟨o, 1, false, true, true, true, false, false, true⟩
/-- A 64-bit destination. -/
def dst64 (o : Operand) : Use := ⟨o, 2, true, true, true, true, false, false, true⟩
/-- A destination of 32 or 64 bits. -/
def dstW (wide : Bool) (o : Operand) : Use := if wide then dst64 o else dst32 o
/-- A run of V registers read (R148, R170): no S register, no constant. -/
def srcRun (o : Operand) (n : Nat) (even : Bool) : Use := ⟨o, n, even, false, true, false, false, false, true⟩
/-- A run of V registers written. -/
def dstRun (o : Operand) (n : Nat) (even : Bool) : Use := ⟨o, n, even, true, true, false, false, false, true⟩
/-- A copy-tag field. -/
def tagUse (o : Operand) : Use := ⟨o, 0, false, false, false, false, false, true, true⟩

/-- Check 7 of R69 for one field. -/
def Use.illegal (u : Use) : Bool :=
  match u.op with
  | .resv _ => true
  | .v n => !u.vOk || (u.even && n.val % 2 == 1)
  | .s _ => !u.sOk
  | .ct _ => !u.tag && (u.dst || !u.constOk)
  | .const _ => u.tag || u.dst || !u.constOk
  | .none => !u.noneOk

/-- Check 8 of R69 for one field: every V register it names lies below WINSIZE. -/
def Use.outside (winsize : Nat) (u : Use) : Bool :=
  match u.op with
  | .v n => decide (winsize < n.val + u.regs)
  | _ => false

/-- The tag a field names. -/
def tagOf : Operand → Option Nat
  | .ct n => some n.val
  | _ => none

/-! ### The scoreboard (R62, R113, R275) -/

/-- Whether two register fields name a common register. -/
def overlaps (a : Operand) (n : Nat) (b : Operand) (m : Nat) : Bool :=
  match a, b with
  | .v i, .v j => decide (i.val < j.val + m) && decide (j.val < i.val + n)
  | .s i, .s j => decide (i = j)
  | _, _ => false

/-- Writes that units still owe to the registers of a group: the field, how many registers it names, and the lanes (R62, R130). -/
def State.owed (s : State) (core gid : Nat) : List (Operand × Nat × Nat) :=
  let d := s.die (dieOf core)
  let mine (c g : Nat) : Bool := c == core && g == gid
  ((s.accesses.filter fun a => mine a.core a.gid && !a.orphan).map fun a => (a.dest, a.regs, 2 ^ a.lane)) ++
  ((d.kvOpenReqs.filter fun r => mine r.core r.gid && !r.orphan).map fun r => (r.dest, 2, 2 ^ r.lane)) ++
  ((d.scanq.filter fun r => mine r.core r.gid).map fun r => (r.dest, 1, 2 ^ r.lane)) ++
  ((d.ridge.syncs.filter fun w => mine w.core w.gid).map fun w => (w.dest, 1, w.lanes)) ++
  (s.group core gid).boardings.map fun b => (b.dest, 1, b.lanes)

/-- Writes that lanes outside a PC set owe by instructions that they issue again (R130, R389). -/
def Group.owedAgain (x : Group) (set : List Nat) : List (Operand × Nat × Nat) :=
  x.live.filterMap fun l => if set.contains l then none else (x.lane l).again.map fun a => (a.dest, a.regs, 2 ^ l)

/-- Whether a unit still owes a write to a register that a field names, in one of the lanes. -/
def State.owes (s : State) (c : Ctx) (u : Use) : Bool :=
  let wide := match u.op with | .s _ => true | _ => false
  (s.owed c.core c.gid ++ (s.grp c).owedAgain c.set).any fun w => overlaps u.op u.regs w.1 w.2.1 && (wide || c.act.any w.2.2.testBit)

/-- Element bytes of a row of n elements (R177). -/
def elemBytes (fmt n : Nat) : Nat := (n * elemBits fmt + 7) / 8
/-- Whether a format has scales. -/
def hasScale (fmt : Nat) : Bool := decide (2 ≤ fmt)
/-- The registers a register source takes (R186). -/
def regSourceLen (fmt h : Nat) : Nat :=
  let w := (elemBytes fmt 128 + 127) / 128
  h * w + (if hasScale fmt then (4 * h + 127) / 128 else 0)

/-- The registers that the slices left of an operation read, of a register source that begins at r: runs of first and length (R186). -/
def MatOp.regsLeft (op : MatOp) (r : Nat) : List (Nat × Nat) :=
  let w := (elemBytes op.fmta 128 + 127) / 128
  let i := 8 * op.slices
  if op.height ≤ i then []
  else (r + i * w, (op.height - i) * w) ::
    if hasScale op.fmta then [(r + op.height * w + i / 32, (4 * op.height + 127) / 128 - i / 32)] else []

/-- Whether an instruction writes a register that an operation still streams from: until the slice that reads it has been read (R186). -/
def State.streams (s : State) (c : Ctx) (u : Use) : Bool :=
  u.dst && (s.core c.core).queue.any fun op =>
    op.owner == (s.grp c).uid &&
    match u.op, op.daReg with
    | .v n, some r => (op.regsLeft r).any fun q => decide (n.val < q.1 + q.2) && decide (q.1 < n.val + u.regs)
    | _, _ => false

/-- The copy tags that fields read as sources and that are not zero (R62). -/
def Group.tagsBusy (x : Group) (us : List Use) : Option Nat :=
  us.findSome? fun u =>
    match u.op with
    | .ct n => if !u.tag && (x.tag n.val).count != 0 then some n.val else none
    | _ => none

/-! ### Issue -/

/-- What an instruction does when it issues: it completes; it cannot issue now and leaves no trace; or it stalls after an
effect that comes before the stall. -/
inductive Issued
  | done (s : State)
  | stall
  | stallAfter (s : State)
deriving Repr

/-- Every group may be looked at again: something has happened (log 1). -/
def State.clearSkip (s : State) : State :=
  { s with cores := s.cores.map fun e => (e.1, { e.2 with groups := e.2.groups.map fun g => (g.1, { g.2 with skip := 0 }) }) }

/-- Whether a lane is waiting (R82); a halted lane issues nothing either (R423). -/
def Group.waits (x : Group) (l : Nat) : Bool :=
  let k := x.lane l
  k.halted.isSome ||
  match k.wait with
  | .none => false
  | .tag n => (x.tag n).count != 0
  | .reply _ => false
  | .fetch _ => false
  | _ => true

/-- Whether a lane cannot issue: it waits, or a unit that it needs has not replied (R82). -/
def Group.held (x : Group) (l : Nat) : Bool :=
  x.waits l ||
  match (x.lane l).wait with
  | .reply _ => true
  | .fetch _ => true
  | _ => false

/-- Whether two lanes stand at one PC in one mode (R81). -/
def Group.together (x : Group) (i j : Nat) : Bool :=
  decide ((x.lane i).pc = (x.lane j).pc) && decide ((x.lane i).mode = (x.lane j).mode)

/-- A lane below all others added to PC sets in rotation order. -/
def Group.addToSets (x : Group) (l : Nat) (sets : List (List Nat)) : List (List Nat) :=
  let (mine, others) := sets.partition fun t => x.together l (t.headD 0)
  (l :: mine.flatten) :: others

/-- The PC sets of ascending lanes by equal PC and mode, in rotation order: ascending leader (R81). -/
def Group.pcSets (x : Group) : List Nat → List (List Nat)
  | [] => []
  | l :: ls => x.addToSets l (x.pcSets ls)

/-- The PC sets of a group's live lanes. -/
def Group.sets (x : Group) : List (List Nat) := x.pcSets x.live

/-- Whether a PC set waits: all of its lanes do (R82). -/
def Group.setWaits (x : Group) (t : List Nat) : Bool := t.all x.waits

/-- The next runnable set in rotation order after a leader, wrapping (R83). -/
def Group.nextSet (x : Group) (leader : Nat) : Option (List Nat) :=
  let run := x.sets.filter fun t => !x.setWaits t
  match run.find? (fun t => decide (leader < t.headD 0)) with
  | some t => some t
  | none => run.head?

/-- The PC set a lane stands in; empty when the lane is not live. -/
def Group.setOf (x : Group) (l : Nat) : List Nat := (x.sets.find? fun t => t.contains l).getD []

/-- An issue counted in the turn of the set that was current before it, if it is that set's and the turn has not passed on (R83, R102). -/
def Group.countTurn (x : Group) (set : List Nat) (was : Nat) : Group :=
  if set.any was.testBit && was.testBit x.current then { x with turn := x.turn + 1 } else x

/-- What select_set makes of a group's turn after an issue (R83): passed on at 16, begun anew when the current set has merged with
lanes outside the one that was current before. -/
def Group.passTurn (x : Group) (was : Nat) : Group :=
  let x := if x.turn ≥ 16 then
      match x.nextSet x.current with
      | some t => if t.contains x.current then x else { x with current := t.headD 0, turn := 0 }
      | none => x
    else x
  let t := x.setOf x.current
  if t.contains x.current && was.testBit x.current && t.any (fun l => !was.testBit l) then
    { x with current := t.headD 0, turn := 0 }
  else x

/-- What an issue spends: the core's credits are those of the selection, and the group's last issue is now (R85). The second half of
a pair spends nothing more. -/
def State.spend (s : State) (c : Ctx) : State :=
  match s.cur with
  | none => s
  | some i =>
    if i.second then s
    else (s.onCore c.core fun k => { k with credits := i.credits, creditClk := s.clk }).onGrp c fun x => { x with lastIssue := some s.clk }

/-- Whether the second half of a pair follows: every lane of the set stands at the next slot and can issue there (R53). -/
def Group.pairGoes (x : Group) (c : Ctx) : Bool :=
  c.set.all fun l =>
    let k := x.lane l
    k.live && decide (k.pc = c.next) && decide (k.mode = c.mode) && !x.held l

/-- The end of an issue (R53, R83, R85, R89, R92, R277): a barrier arrival or a deadlock that it brings about, the group's
counts, and the latch for the second half of a pair. The turn passes on when the whole pair has issued. -/
def State.finish (s : State) (c : Ctx) : State :=
  let (pair, was) := match s.cur with | some i => (i.pair, i.was) | none => (false, 0)
  let s := s.spend c
  let s := (s.onGrp c fun x => ({ x with seqno := (x.seqno + 1) % 2 ^ 32 }).raiseDeadlock).arriveBarrier c.core c.gid
  let go := pair && (s.grp c).pairGoes c
  let s := (s.onGrp c fun x => let x := x.countTurn c.set was; if go then x else x.passTurn was).clearSkip
  { s with cur := if go then s.cur.map fun i => { i with pair := false, second := true, refetched := false } else none }

/-- The latch emptied without an issue; where a pair's first half has issued, its turn is looked at now (R83). -/
def State.unlatch (s : State) : State :=
  match s.cur with
  | some i => { (if i.second then s.onGroup i.core i.gid fun x => x.passTurn i.was else s) with cur := none }
  | none => s

/-- The set found unable to issue: its lanes are passed over until something else happens (log 1). -/
def State.skipSet (s : State) (c : Ctx) : State := (s.onGrp c fun x => { x with skip := x.skip ||| maskOf c.set }).unlatch

/-- A trap of a kind for every lane of the set, from a check of R69 (R412): return PC the instruction. -/
def State.trapSet (s : State) (c : Ctx) (kind : Nat) : State :=
  s.enterTraps c.core c.gid (fun _ => ⟨kind, 0, c.pc, 0, 0, none⟩) c.set

/-- The acquire of a copy tag's completion stamp by the lanes that read its count as zero (R313). -/
def Group.acquireTags (x : Group) (us : List Use) (ls : List Nat) : Group :=
  us.foldl (fun x u =>
    match u.op with
    | .ct n =>
      match u.tag, (x.tag n.val).stamp with
      | false, some v => x.onLanes ls fun _ k => k.acquire v
      | _, _ => x
    | _ => x) x

/-- Whether a source field of a lane reads a word whose parity fails (R444). -/
def Group.parityFails (x : Group) (us : List Use) (l : Nat) : Bool :=
  !x.badV.isEmpty && us.any fun u =>
    match u.op with
    | .v n => !u.dst && (List.range u.regs).any fun i => x.badV.contains (32 * (n.val + i) + l)
    | _ => false

/-- The frame in which an instruction issues: check 7 (illegal operands and masks), check 8 (window), check 9 (privilege,
R88), then the scoreboard, copy tags and register parity (R444), then the instruction itself. `masks` are the mask fields it uses; `allowed` says
whether the mode and the group may run it. -/
def State.issueWith (s : State) (masks : List (Fin 16)) (uses : List Use) (allowed : Ctx → Group → Bool)
    (body : State → Ctx → Issued) : Host.Outcome State Fault Refusal :=
  match s.ctx? with
  | none => .fault .noIssuer
  | some c =>
    let x := s.grp c
    if uses.any Use.illegal || masks.any (fun m => decide (12 ≤ m.val)) then .next ((s.trapSet c 6).finish c)
    else if uses.any (Use.outside x.winsize) then .next ((s.trapSet c 7).finish c)
    else if !allowed c x || (decide (c.mode = .u) && masks.any (fun m => decide (10 ≤ m.val))) then
      .next ((s.trapSet c 8).finish c)
    else if uses.any (s.owes c) || uses.any (s.streams c) then .next (s.skipSet c)
    else
      match x.tagsBusy uses with
      | some n => .next (s.onGrp c fun x => x.onLanes c.set fun _ k => { k with wait := .tag n }).unlatch
      | none =>
        let bad := c.act.filter (x.parityFails uses)
        if !bad.isEmpty then
          .next ((s.enterTraps c.core c.gid (fun _ => ⟨23, 0, c.pc, 0, 0, none⟩) bad).finish c)
        else
        let s0 := s.onGrp c fun x =>
          (x.onLanes c.set fun _ k => { k with wait := .none }).acquireTags uses c.act
        match body s0 c with
        | .done s' => .next (s'.finish c)
        | .stall => .next (s.skipSet c)
        | .stallAfter s' => .next ((s'.clearSkip.skipSet c).onGrp c fun x => { x with skip := x.skip ||| 2 ^ 32 })

/-- Issue in every mode, without masks. -/
def State.issue (s : State) (uses : List Use) (body : State → Ctx → Issued) : Host.Outcome State Fault Refusal :=
  s.issueWith [] uses (fun _ _ => true) body

/-- Issue of an instruction that changes only its own group: every lane of the set moves on, then the group changes. -/
def State.issueGroup (s : State) (uses : List Use) (f : Ctx → Group → Group) : Host.Outcome State Fault Refusal :=
  s.issue uses fun s c => .done ((s.advance c).onGrp c (f c))

end Sys2Proof.Machine
end

