-- ==== Sys2Proof/Machine/Trans.lean ====
section
/-!
DEFINITION. The transcendental functions of R45 to R47, rounded once, nearest with ties to even. A reciprocal or a root is
rounded from an exact quotient or integer root. Each other function is enclosed between two fixed-point numbers at rising
precision until both ends round to one result; the cases whose result is exact are taken out first.
-/
namespace Sys2Proof.Machine

/-- The integer square root of n, bit by bit from bit `b` down. -/
def isqrtLoop (n : Nat) : Nat → Nat → Nat
  | 0, r => r
  | b + 1, r => let t := r + 2 ^ b; if t * t ≤ n then isqrtLoop n b t else isqrtLoop n b r

/-- The integer square root. -/
def isqrt (n : Nat) : Nat := isqrtLoop n (n.log2 / 2 + 1) 0

/-- An enclosure lo ≤ x·2^p ≤ hi of a real x, for a precision p known from the context. -/
structure Encl where
  lo : Int
  hi : Int
deriving DecidableEq, Repr

/-- The terms of Σ yᵏ/k! from a term on, floors of fixed-point values. -/
def expTerms (p y : Nat) : Nat → Nat → Nat → Nat → Nat
  | 0, _, _, acc => acc
  | fuel + 1, k, t, acc =>
    if t = 0 then acc else expTerms p y fuel (k + 1) (t * y / ((k + 1) * 2 ^ p)) (acc + t)

/-- e^(y/2^p) for 0 ≤ y < 2^p: a lower end; the upper end lies less than 4p + 16 above it. -/
def expLow (p y : Nat) : Nat := expTerms p y (p + 4) 0 (2 ^ p) 0

/-- The error that bounds `expLow`. -/
def expErr (p : Nat) : Nat := 4 * p + 16

/-- Σ of z^(2k+1)/(2k+1), floors, for a fixed-point z below 1/2. -/
def atanhTerms (p z2 : Nat) : Nat → Nat → Nat → Nat → Nat
  | 0, _, _, acc => acc
  | fuel + 1, k, t, acc => if t = 0 then acc else atanhTerms p z2 fuel (k + 2) (t * z2 / 2 ^ p) (acc + t / k)

/-- ln 2 · 2^p, from 2·atanh(1/3): a lower end. -/
def ln2Low (p : Nat) : Nat := 2 * atanhTerms p (2 ^ p / 9) (p + 4) 1 (2 ^ p / 3) 0

/-- The error that bounds the series lower ends of this file. -/
def serErr (p : Nat) : Nat := 8 * p + 64

/-- Σ of (−1)^k/((2k+1)·d^(2k+1)): positive terms and negative terms apart. -/
def atanTerms (d : Nat) : Nat → Nat → Nat → Bool → Int → Int
  | 0, _, _, _, acc => acc
  | fuel + 1, k, t, neg, acc =>
    if t = 0 then acc
    else atanTerms d fuel (k + 2) (t / (d * d)) (!neg) (if neg then acc - (t / k : Nat) else acc + (t / k : Nat))

/-- π · 2^p within `serErr`·8 either way (Machin's formula). -/
def piMid (p : Nat) : Int := 16 * atanTerms 5 (p + 4) 1 (2 ^ p / 5) false 0 - 4 * atanTerms 239 (p + 4) 1 (2 ^ p / 239) false 0

/-- The error of `piMid`. -/
def piErr (p : Nat) : Int := 32 * (p + 8)

/-- m·2^e as a fixed-point number of p fraction bits, rounded down. -/
def toFix (p : Nat) (m : Nat) (e : Int) : Nat :=
  if 0 ≤ e + p then m * 2 ^ (e + p).toNat else m / 2 ^ (-(e + p)).toNat

/-- 2^(n + f) for a fixed-point fraction f in [0, 2^p] enclosed by [flo, fhi]: the enclosure of 2^f. -/
def exp2Frac (p flo fhi : Nat) : Encl :=
  let l := ln2Low p
  let ylo := flo * l / 2 ^ p
  let yhi := fhi * (l + serErr p) / 2 ^ p + 1
  -- e^y for y below 1: both ends; the upper argument may reach ln 2 plus the error
  ⟨expLow p ylo, expLow p yhi + expErr p⟩

/-- e^(x/2^p) for a fixed-point x ≥ 0 with error [xlo, xhi]: exponent k and the enclosure of e^x / 2^k in fixed point. -/
def expFix (p xlo xhi : Nat) : Nat × Encl :=
  let l := ln2Low p
  let k := xlo / (l + serErr p)
  let rlo := xlo - k * (l + serErr p)
  let rhi := xhi - k * l
  (k, ⟨expLow p rlo, expLow p rhi + expErr p⟩)

/-- An enclosure of a positive real: lo·2^e to hi·2^e. -/
structure PosEncl where
  lo : Nat
  hi : Nat
  e : Int
deriving DecidableEq, Repr

/-- Whether both ends of an enclosure round to one result; the value lies strictly between them, and the lower end has more bits
than any result keeps. -/
def PosEncl.decide? (f : Fmt) (neg : Bool) (x : PosEncl) : Option (Nat × Flags) :=
  let a := f.roundMag .rne neg x.lo x.e true
  let b := if x.hi = 0 then a else f.roundMag .rne neg (x.hi - 1) x.e true
  if a = b ∧ 2 ^ 32 ≤ x.lo then some a else none

/-- The first precision of a list at which an enclosure rounds to one result. The last precision decides in any case. -/
def refine (f : Fmt) (neg : Bool) (encl : Nat → PosEncl) : List Nat → Nat × Flags
  | [] => (0, .inexact)
  | [p] => f.roundMag .rne neg (encl p).lo (encl p).e true
  | p :: q :: ps =>
    match (encl p).decide? f neg with
    | some r => r
    | none => refine f neg encl (q :: ps)

/-- The precisions tried, in fraction bits. -/
def precisions : List Nat := [96, 192, 384, 768, 1536]

/-- 1/x (R46). -/
def recip (f : Fmt) (neg : Bool) (m : Nat) (e : Int) : Nat × Flags :=
  let k := m.log2 + 64
  f.roundMag .rne neg (2 ^ k / m) (-e - k) (decide (2 ^ k % m ≠ 0))

/-- √x (R46). -/
def sqrtMag (f : Fmt) (m : Nat) (e : Int) : Nat × Flags :=
  let s := 128 + (e % 2).toNat
  let n := m * 2 ^ s
  let r := isqrt n
  f.roundMag .rne false r ((e - s) / 2) (decide (r * r ≠ n))

/-- 1/√x (R46): the root of a quotient long enough that a remainder can only be told by its sticky bit. -/
def rsqrtMag (f : Fmt) (m : Nat) (e : Int) : Nat × Flags :=
  -- 1/(m·2^e) = q·2^(-e-k) with q = 2^k/m, k chosen so that -e-k is even
  let k := m.log2 + 160 + ((e + m.log2) % 2).toNat
  let q := 2 ^ k / m
  let r := isqrt q
  f.roundMag .rne false r ((-e - k) / 2) (decide (2 ^ k % m ≠ 0) || decide (r * r ≠ q))

/-- 2^x for a finite x = (−1)^neg·m·2^e (R46, R47). -/
def exp2Mag (f : Fmt) (neg : Bool) (m : Nat) (e : Int) : Nat × Flags :=
  if m = 0 then f.roundMag .rne false 1 0 false
  else if e + m.log2 ≥ 13 then
    -- beyond every format's range
    if neg then f.roundMag .rne false 1 (-100000) false else f.roundMag .rne false 1 100000 false
  else if 0 ≤ e then
    let n : Int := m * 2 ^ e.toNat
    f.roundMag .rne false 1 (if neg then -n else n) false
  else
    let d := (-e).toNat
    if e + m.log2 < -300 then
      -- 2^x differs from 1 by less than any format can hold
      if neg then f.roundMag .rne false (2 ^ 300 - 1) (-300) true else f.roundMag .rne false (2 ^ 300) (-300) true
    else
      let ip := m / 2 ^ d
      let fr := m % 2 ^ d
      if fr = 0 then f.roundMag .rne false 1 (if neg then -(ip : Int) else ip) false
      else
        let n : Int := if neg then -(ip : Int) - 1 else ip
        let g := if neg then 2 ^ d - fr else fr
        refine f false (fun p =>
          let flo := toFix p g e
          let x := exp2Frac p flo (flo + 1)
          ⟨x.lo.toNat, x.hi.toNat, n - p⟩) precisions

/-- log₂ x for a finite positive x = m·2^e that is no power of two (R46). -/
def log2Mag (f : Fmt) (m : Nat) (e : Int) : Nat × Flags :=
  let t := m.log2
  -- x = r·2^k with r in [3/4, 3/2)
  let up := decide (2 * m ≥ 3 * 2 ^ t)
  let k : Int := e + t + (if up then 1 else 0)
  let den := 2 ^ (if up then t + 1 else t)
  -- |z| = |m − den| / (m + den), and ln r = ±2·atanh |z|
  let below := decide (m < den)
  let num := if below then den - m else m - den
  let signed (p : Nat) : Encl :=
    let z := 2 ^ p * num / (m + den)
    let a := 2 * atanhTerms p (z * z / 2 ^ p) (p + 4) 1 z 0
    let l := ln2Low p
    let qlo := a * 2 ^ p / (l + serErr p)
    let qhi := (a + serErr p) * 2 ^ p / l + 1
    let kk : Int := k * 2 ^ p
    if below then ⟨kk - qhi, kk - qlo⟩ else ⟨kk + qlo, kk + qhi⟩
  -- the sign of log₂ x is that of x − 1
  let neg := if below then decide (k ≤ 0) else decide (k < 0)
  refine f neg (fun p =>
    let x := signed p
    if neg then ⟨(-x.hi).toNat, (-x.lo).toNat, -p⟩ else ⟨x.lo.toNat, x.hi.toNat, -p⟩) precisions

/-- tanh of a positive finite magnitude (R46). -/
def tanhMag (f : Fmt) (neg : Bool) (m : Nat) (e : Int) : Nat × Flags :=
  if e + m.log2 ≥ 6 then f.roundMag .rne neg (2 ^ 80 - 1) (-80) true
  else
    refine f neg (fun p =>
      let q := p + 192
      let x := toFix q m (e + 1)
      let (k, y) := expFix q x (x + 1)
      -- tanh x = (E − 1)/(E + 1), rising in E
      let elo := y.lo.toNat * 2 ^ k
      let ehi := y.hi.toNat * 2 ^ k
      ⟨(elo - 2 ^ q) * 2 ^ q / (elo + 2 ^ q), (ehi - 2 ^ q) * 2 ^ q / (ehi + 2 ^ q) + 1, -q⟩) precisions

/-- 1/(1 + e^−x) for a nonzero finite x (R46). -/
def sigmMag (f : Fmt) (neg : Bool) (m : Nat) (e : Int) : Nat × Flags :=
  if e + m.log2 ≥ 8 then
    if neg then f.roundMag .rne false 0 (-400) true else f.roundMag .rne false (2 ^ 80 - 1) (-80) true
  else
    refine f false (fun p =>
      let q := p + 512
      let x := toFix q m e
      let (k, y) := expFix q x (x + 1)
      let elo := y.lo.toNat * 2 ^ k
      let ehi := y.hi.toNat * 2 ^ k
      -- E = e^|x|: E/(E + 1) rises in E and 1/(E + 1) falls
      if neg then ⟨2 ^ q * 2 ^ q / (ehi + 2 ^ q), 2 ^ q * 2 ^ q / (elo + 2 ^ q) + 1, -q⟩
      else ⟨elo * 2 ^ q / (elo + 2 ^ q), ehi * 2 ^ q / (ehi + 2 ^ q) + 1, -q⟩) precisions

/-- The alternating series of sine (k = 1) or cosine (k = 0) of a fixed-point r. -/
def trigTerms (p r2 : Nat) : Nat → Nat → Nat → Bool → Int → Int
  | 0, _, _, _, acc => acc
  | fuel + 1, k, t, neg, acc =>
    if t = 0 then acc
    else trigTerms p r2 fuel (k + 2) (t * r2 / 2 ^ p / ((k + 1) * (k + 2))) (!neg) (if neg then acc - t else acc + t)

/-- sin x or cos x for a positive finite magnitude at most 65,536 (R46). -/
def trigMag (f : Fmt) (cosine neg : Bool) (m : Nat) (e : Int) : Nat × Flags :=
  let eval (p : Nat) : Encl :=
    let q := p + 32
    let x := toFix q m e
    let pi := (piMid q).toNat
    -- x = j·(π/2) + r with r in [0, π/2]
    let j := 2 * x / pi
    let r := x - j * pi / 2
    let err : Int := (j + 2) * piErr q + 16 * q + 64
    let jj := if cosine then j + 1 else j
    -- sin(j·π/2 + r): sine or cosine of r with a sign; cos x = sin(x + π/2)
    let r2 := r * r / 2 ^ q
    let v := if jj % 2 = 0 then trigTerms q r2 (q + 4) 1 r false 0 else trigTerms q r2 (q + 4) 0 (2 ^ q) false 0
    let v := if jj / 2 % 2 = 1 then -v else v
    ⟨v - err, v + err⟩
  let tryAt (p : Nat) : Option (Nat × Flags) :=
    let x := eval p
    let ex : Int := -((p : Int) + 32)
    if 0 < x.lo then (PosEncl.mk x.lo.toNat x.hi.toNat ex).decide? f neg
    else if x.hi < 0 then (PosEncl.mk (-x.hi).toNat (-x.lo).toNat ex).decide? f (!neg)
    else none
  match precisions.findSome? tryAt with
  | some r => r
  | none => (0, .inexact)

/-- Σ of 2ⁿ x^(2n+1)/(2n+1)!!, floors. -/
def erfTerms (p x2 : Nat) : Nat → Nat → Nat → Nat → Nat
  | 0, _, _, acc => acc
  | fuel + 1, k, t, acc => if t = 0 then acc else erfTerms p x2 fuel (k + 2) (2 * t * x2 / 2 ^ p / (k + 2)) (acc + t)

/-- erf of a positive finite magnitude (R46): 2/√π · e^(−x²) · Σ 2ⁿ x^(2n+1)/(2n+1)!!. -/
def erfMag (f : Fmt) (neg : Bool) (m : Nat) (e : Int) : Nat × Flags :=
  if e + m.log2 ≥ 3 then f.roundMag .rne neg (2 ^ 80 - 1) (-80) true
  else
    refine f neg (fun p =>
      let q := p + 384
      let x := toFix q m e
      let x2lo := x * x / 2 ^ q
      let x2hi := (x + 1) * (x + 1) / 2 ^ q + 1
      let slo := erfTerms q x2lo (8 * q) 1 x 0
      -- each term's floor error stays below the next factor's growth; 2^(110) bounds the sum's relative growth
      let shi := erfTerms q x2hi (8 * q) 1 (x + 1) 0 + 2 ^ 112 * (q + 64)
      let (k, ex) := expFix q x2lo x2hi
      let elo := ex.lo.toNat * 2 ^ k
      let ehi := ex.hi.toNat * 2 ^ k
      let pi := piMid q
      let rlo := isqrt ((pi - piErr q).toNat * 2 ^ q)
      let rhi := isqrt ((pi + piErr q).toNat * 2 ^ q) + 1
      ⟨2 * slo * 2 ^ q * 2 ^ q / (ehi * rhi), 2 * shi * 2 ^ q * 2 ^ q / (elo * rlo) + 1, -q⟩) precisions

/-- The functions of R46. -/
inductive Func
  | rcp | rsq | sqrt | exp2 | log2 | tanh | sigm | sin | cos | erf
deriving DecidableEq, Repr

/-- One result of R46, before the output flush. -/
def Func.eval (fn : Func) (f : Fmt) (x : Num) : Nat × Flags :=
  let inf (neg : Bool) : Nat := f.infCode.getD 0 + neg.toNat * 2 ^ f.sign
  let zero (neg : Bool) : Nat := neg.toNat * 2 ^ f.sign
  let one (neg : Bool) : Nat × Flags := f.roundMag .rne neg 1 0 false
  match fn, x with
  | _, .nan => (f.canon, .invalid)
  | .rcp, .inf neg => (zero neg, .none)
  | .rcp, .fin neg m e => if m = 0 then (inf neg, .divZero) else recip f neg m e
  | .rsq, .inf neg => if neg then (f.canon, .invalid) else (zero false, .none)
  | .rsq, .fin neg m e =>
    if m = 0 then (inf neg, .divZero) else if neg then (f.canon, .invalid) else rsqrtMag f m e
  | .sqrt, .inf neg => if neg then (f.canon, .invalid) else (inf false, .none)
  | .sqrt, .fin neg m e =>
    if m = 0 then (zero neg, .none) else if neg then (f.canon, .invalid) else sqrtMag f m e
  | .exp2, .inf neg => (if neg then zero false else inf false, .none)
  | .exp2, .fin neg m e => exp2Mag f neg m e
  | .log2, .inf neg => if neg then (f.canon, .invalid) else (inf false, .none)
  | .log2, .fin neg m e =>
    if m = 0 then (inf true, .divZero)
    else if neg then (f.canon, .invalid)
    else if m = 2 ^ m.log2 then
      let k : Int := e + m.log2
      f.roundMag .rne (decide (k < 0)) k.natAbs 0 false
    else log2Mag f m e
  | .tanh, .inf neg => one neg
  | .tanh, .fin neg m e => if m = 0 then (zero neg, .none) else tanhMag f neg m e
  | .sigm, .inf neg => if neg then (zero false, .none) else one false
  | .sigm, .fin neg m e => if m = 0 then f.roundMag .rne false 1 (-1) false else sigmMag f neg m e
  | .sin, .inf _ => (f.canon, .invalid)
  | .sin, .fin neg m e =>
    if m = 0 then (zero neg, .none)
    else if (Num.fin false m e).cmp (.fin false 65536 0) = .gt then (f.canon, .invalid)
    else trigMag f false neg m e
  | .cos, .inf _ => (f.canon, .invalid)
  | .cos, .fin _ m e =>
    if m = 0 then one false
    else if (Num.fin false m e).cmp (.fin false 65536 0) = .gt then (f.canon, .invalid)
    else trigMag f true false m e
  | .erf, .inf neg => one neg
  | .erf, .fin neg m e => if m = 0 then (zero neg, .none) else erfMag f neg m e

/-- 2^((a − b)·c) under R47, before the output flush: the case of two −∞ comes before a NaN c. -/
def fexpm (f : Fmt) (a b c : Num) : Nat × Flags :=
  if a = .inf true ∧ b = .inf true then (0, .none)
  else if a = .nan ∨ b = .nan ∨ c = .nan then (f.canon, .invalid)
  else
    match (sumNum .rne [a, b.neg]).mul c with
    | .nan => (f.canon, .invalid)
    | .inf neg => (if neg then 0 else f.infCode.getD 0, .none)
    | .fin neg m e => exp2Mag f neg m e

end Sys2Proof.Machine
end

