-- ==== Sys2Proof/Machine/Flags.lean ====
section
/-!
DEFINITION. FPCTL, FPSTAT and the flag computations of floating-point instructions (R36, R65, R134 to R136).
-/
namespace Sys2Proof.Machine

/-- FPCTL.FTZ (R134). -/
def Group.ftz (x : Group) : Bool := bit x.fpctl 2

/-- The encodings of RM (R34, R65). -/
def rmOf (n : Nat) : Rm := match n % 4 with | 0 => .rne | 1 => .rz | 2 => .ru | _ => .rd

/-- mode() of R136: RM, or FPCTL's default mode where DYN is set. -/
def Group.rmode (x : Group) (rm : BitVec 2) (md : BitVec 4) : Rm :=
  if md.getLsbD 3 then rmOf x.fpctl else rmOf rm.toNat

/-- The floating-point format of TY (R64). -/
def fmtOf (ty : BitVec 3) : Fmt := match ty.toNat with | 0 => fp32 | 1 => fp16 | _ => bf16

/-- An operand read in a format and flushed (R136). -/
def Group.rdFl (x : Group) (f : Fmt) (o : Operand) (l : Nat) : Num := flushIn x.ftz (x.rdF f o l)

/-- Element i of a packed pair in a format, flushed (R22, R143). -/
def Group.rdHalf (x : Group) (f : Fmt) (o : Operand) (l i : Nat) : Num :=
  match o with
  | .const _ => x.rdFl f o l
  | _ => flushIn x.ftz (f.value (x.rd32 o l / 2 ^ (16 * i) % 2 ^ 16))

/-- Flags of the active lanes merged into FPSTAT (R135). -/
def Group.mergeFlags (x : Group) (f : Flags) : Group := { x with fpstat := x.fpstat ||| f.toWord.toNat }

/-- A result and its flags for every active lane: D written, the union of the flags merged (R135). -/
def Group.wrFlags (x : Group) (c : Ctx) (o : Operand) (wide : Bool) (f : Nat → Nat × Flags) : Group :=
  (x.wr c o wide fun l => (f l).1).mergeFlags (c.act.foldl (fun a l => a.or (f l).2) .none)

end Sys2Proof.Machine
end

