-- ==== Sys2Proof/Machine/Spad.lean ====
section
/-!
DEFINITION. Scratchpad and accumulator storage (spec/07, R157 to R165): partitions, the cluster window, descriptors with
bank rotation, and tile ownership. Shared operations; the instructions are in SpadInstr.
-/
namespace Sys2Proof.Machine

/-- Causes of the scratchpad trap (R409). -/
def causeAlign : Nat := 1
def causeRange : Nat := 2
def causeDesc : Nat := 3
def causeAcc : Nat := 4

/-- BASEk of SPMAP in bytes (R157). -/
def Core.partBase (k : Core) (slot : Nat) : Nat := bits k.spmap.toNat (16 * slot + 6) (16 * slot) * 4096
/-- SIZEk of SPMAP in bytes (R157). -/
def Core.partSize (k : Core) (slot : Nat) : Nat := bits k.spmap.toNat (16 * slot + 14) (16 * slot + 8) * 4096

/-- The alignment rule of R159: an access of 1 to 32 bytes to its size, any other range to 4. -/
def spadAligned (a n : Nat) : Bool := if [1, 2, 4, 8, 16, 32].contains n then a % n == 0 else a % 4 == 0

/-- The cause with which a local access of n bytes fails R159, if it fails. -/
def Core.spadFail (k : Core) (slot a n : Nat) : Option Nat :=
  if !spadAligned a n then some causeAlign
  else if a + n ≤ k.partSize slot then none else some causeRange

/-- n bytes of a core's scratchpad at a physical address. -/
def Core.spadRead (k : Core) (p n : Nat) : Nat := getBytes k.spad p n
/-- n bytes stored to a core's scratchpad at a physical address; a store replaces an uncorrectable word. -/
def Core.spadWrite (k : Core) (p n v : Nat) : Core :=
  { k with spad := putBytes k.spad p n v, badSpad := k.badSpad.filter fun b => decide (b < p ∨ p + n ≤ b) }

/-- A scratchpad descriptor (R162). -/
structure Desc where
  base : Nat
  rowPitch : Nat
  tilePitch : Nat
  rot : Nat
deriving DecidableEq, Repr

/-- The descriptor held in an even S register pair, if it passes the check of R162; a row pitch that no row fits in fails by its range
(R163). -/
def descOf (lo hi : Nat) : Option Desc :=
  let d : Desc := ⟨bits lo 18 0, bits lo 50 32, bits hi 18 0, bits hi 34 32⟩
  let rot := d.rot
  if bits lo 63 51 = 0 ∧ bits lo 31 19 = 0 ∧ bits hi 63 35 = 0 ∧ bits hi 31 19 = 0 ∧ rot ≤ 5 ∧ d.base % 4 = 0 ∧
     d.rowPitch % 4 = 0 ∧ d.tilePitch % 4 = 0 ∧
     (rot = 0 ∨ (d.base % 128 = 0 ∧ d.rowPitch % 128 = 0 ∧ d.tilePitch % 128 = 0))
  then some d else none

/-- The logical address of byte c of row i of tile t (R163). -/
def Desc.la (d : Desc) (t i c : Nat) : Nat := d.base + t * d.tilePitch + i * d.rowPitch + c

/-- The placement of a byte of row i (R163): only bits [6:2] change. -/
def Desc.place (d : Desc) (i la : Nat) : Nat := if d.rot = 0 then la else la ^^^ ((i % 2 ^ d.rot) * 2 ^ (5 - d.rot) * 4)

/-- The cause with which n bytes at column c of row i of tile t fail R159 or R163. -/
def Core.descFail (k : Core) (slot : Nat) (d : Desc) (t i c n : Nat) : Option Nat :=
  match k.spadFail slot (d.la t i c) n with
  | some e => some e
  | none => if c + n ≤ d.rowPitch then none else some causeRange

/-- n bytes through a descriptor. -/
def Core.descRead (k : Core) (slot : Nat) (d : Desc) (t i c : Nat) : Nat → Nat
  | 0 => 0
  | n + 1 =>
    k.descRead slot d t i c n + 256 ^ n * (sget k.spad (k.partBase slot + d.place i (d.la t i c + n))).toNat

/-- n bytes stored through a descriptor. -/
def Core.descWrite (k : Core) (slot : Nat) (d : Desc) (t i c v : Nat) : Nat → Core
  | 0 => k
  | n + 1 => (k.descWrite slot d t i c v n).spadWrite (k.partBase slot + d.place i (d.la t i c + n)) 1 (v / 256 ^ n)

/-- Whether bytes through a descriptor hold an uncorrectable word. -/
def Core.descBad (k : Core) (slot : Nat) (d : Desc) (t i c n : Nat) : Bool :=
  !k.badSpad.isEmpty && (List.range n).any fun b => k.badSpad.contains (k.partBase slot + d.place i (d.la t i c + b))

/-- Whether a slot may name a tile (R165). -/
def Core.ownsAcc (k : Core) (slot t : Nat) : Bool :=
  k.accown.toNat.testBit (8 + t) && bits k.accown.toNat (2 * t + 1) (2 * t) == slot

/-- The key of an accumulator element (R164). -/
def accKey (t i j : Nat) : Nat := (t * 64 + i) * 128 + j
/-- An accumulator element. -/
def Core.accGet (k : Core) (t i j : Nat) : Nat := (sget k.acc (accKey t i j)).toNat
/-- An accumulator element written; a write replaces an uncorrectable word. -/
def Core.accPut (k : Core) (t i j v : Nat) : Core :=
  { k with acc := sput k.acc (accKey t i j) (BitVec.ofNat 32 v), badAcc := k.badAcc.filter fun b => b != accKey t i j }
/-- A tile zeroed. -/
def Core.accZero (k : Core) (t : Nat) : Core :=
  { k with acc := dropRange k.acc (accKey t 0 0) 8192, badAcc := k.badAcc.filter fun b => decide (b < accKey t 0 0 ∨ accKey t 0 0 + 8192 ≤ b) }

/-- Rows of a tile zeroed. -/
def Core.accZeroRows (k : Core) (t i n : Nat) : Core :=
  { k with acc := dropRange k.acc (accKey t i 0) (128 * n),
           badAcc := k.badAcc.filter fun b => decide (b < accKey t i 0 ∨ accKey t i 0 + 128 * n ≤ b) }

/-- The operations of a core that have issued and not completed: pending on a mask, queued or running, interrupted. -/
def Core.matOps (k : Core) : List MatOp :=
  k.queue ++ (k.groups.flatMap fun g => g.2.masks.filterMap (fun m => m.pending) ++ g.2.step)

/-- A tile is busy from the issue of an operation that names it to its completion (R165). -/
def Core.accBusy (k : Core) (t : Nat) : Bool := k.matOps.any fun o => o.acc == t

/-- A partition-relative address of a slot that may be a window address (R159, R166): the target core and slot with the
physical address, or the cause. `role` gives the core and context slot that the group's operator binds to a role in the
issuing core's cluster. -/
def State.spadTarget (s : State) (core slot a n : Nat) (role : Nat → Option (Nat × Nat)) : Except Nat (Nat × Nat) :=
  if !spadAligned a n then .error causeAlign
  else if 0x1000000 ≤ a ∧ a < 0x1800000 then
    match role (bits a 22 19) with
    | none => .error causeRange
    | some (c, k) =>
      let o := bits a 18 0
      if o + n ≤ (s.core c).partSize k then .ok (c, (s.core c).partBase k + o) else .error causeRange
  else
    match (s.core core).spadFail slot a n with
    | some e => .error e
    | none => .ok (core, (s.core core).partBase slot + a)

/-- The traps of failing lanes, each with its own cause and address; the other lanes stay at the instruction (R171). -/
def State.spadTraps (s : State) (c : Ctx) (fails : List (Nat × Nat × Nat)) : State :=
  s.enterTraps c.core c.gid (fun l =>
    match fails.find? (fun e => e.1 == l) with
    | some (_, cause, a) => ⟨10, cause, c.pc, a, 0, none⟩
    | none => ⟨10, 0, c.pc, 0, 0, none⟩) (fails.map fun e => e.1)

/-- A scratchpad trap for all active lanes with the cause of the lowest failing one (R412). -/
def State.spadTrapAll (s : State) (c : Ctx) (cause addr : Nat) : State :=
  s.enterTraps c.core c.gid (fun _ => ⟨10, cause, c.pc, addr, 0, none⟩) c.act

end Sys2Proof.Machine
end

