-- ==== Sys2Proof/Machine/Array.lean ====
section
/-!
DEFINITION. The matrix array (spec/08): signing and submission, weight banks, the slices of an operation under R42 and R43,
the epilogue stages, completion. Shared operations; the instructions are in Mtx.
-/
namespace Sys2Proof.Machine

/-! ### Signing and submission (R182, R183, R188) -/

/-- Whether a mask is complete: its enrolment set is a subset of its signature set (R182). -/
def MaskReg.complete (m : MaskReg) : Bool := m.enrol &&& m.sig == m.enrol

/-- An operation with the clock of its signatures enters the array queue, if there is room (R188). -/
def Core.enqueue (k : Core) (op : MatOp) : Option Core :=
  if k.queue.length < 8 then some { k with queue := k.queue ++ [op] } else none

/-- A mask that is complete submits its pending operation and clears its signature set; none when the array queue is full
(R182). -/
def Core.trySubmit (k : Core) (gid mk : Nat) : Option Core :=
  match k.groups.find? gid with
  | none => some k
  | some x =>
    let m := x.mask mk
    match m.pending with
    | some op =>
      if m.complete then
        (k.enqueue { op with stamp := if m.sig = 0 then none else some m.sigStamp }).map fun k =>
          { k with groups := k.groups.put gid (x.setMask mk { m with sig := 0, sigStamp := 0, pending := none }) }
      else some k
    | none => some k

/-- The same for every mask of a group. -/
def Core.trySubmitAll (k : Core) (gid : Nat) : Option Core :=
  (List.range 12).foldl (fun a mk => a.bind fun k => k.trySubmit gid mk) (some k)

/-- The state after every mask that has become complete has submitted; none when a submission must wait. -/
def State.submitAll (s : State) (core gid : Nat) : Option State :=
  ((s.core core).trySubmitAll gid).map fun k => s.setCore core k

/-- Lanes enrolled in a mask sign it (R182). -/
def Group.sign (x : Group) (mk : Nat) (ls : List Nat) : Group :=
  let m := x.mask mk
  let ls := ls.filter fun l => m.enrol.testBit l
  let first := if m.sig = 0 then (x.lane (ls.headD 0)).c else m.sigStamp
  x.setMask mk { m with sig := m.sig ||| maskOf ls, sigStamp := ls.foldl (fun a l => stampMax a (x.lane l).c) first }

/-! ### Weight banks (R176 to R179) -/

/-- A bank of a core. -/
def Core.bank (k : Core) (b : Nat) : Bank := (k.banks[b]?).getD Bank.empty
/-- A core with a bank changed. -/
def Core.setBank (k : Core) (b : Nat) (x : Bank) : Core := { k with banks := setAt k.banks b x }

/-- The private bank of a group, by uid. -/
def Core.privateBank (k : Core) (owner : Nat) : Option Nat :=
  [0, 1].find? fun b => (k.bank b).owner == some owner && !(k.bank b).releasing

/-- Whether a block is the one an operation multiplies by. -/
def RideBlock.serves (r : RideBlock) (q : RideRef) : Bool :=
  q.op == r.op && q.expert == r.expert && q.opening == some r.opening && q.place == r.place

/-- Whether the block of an operation has reached its core's landing buffer or a bank (R249). -/
def Core.blockHere (k : Core) (q : RideRef) : Bool :=
  (k.landing.any fun r => r.serves q) || k.banks.any fun b => match b.ride with | some r => r.serves q | none => false

/-- Whether an issued operation still has to stream from a bank (R179). -/
def Core.bankInUse (k : Core) (b : Nat) : Bool :=
  k.matOps.any fun o =>
    decide (8 * o.slices < o.height) &&
    (o.bank == some b ||
     (o.bank.isNone && o.ride.isNone && o.adpt.isNone && (k.bank b).owner == some o.owner) ||
     match o.ride, (k.bank b).ride with
     | some q, some r => r.serves q
     | _, _ => false)

/-- A bank set EMPTY; its bytes and format stay unused (R179). -/
def Bank.free (b : Bank) : Bank := { b with st := 0, owner := none, ride := none, tag := none, releasing := false, bad := [] }

/-- Banks that may be released are: a private one given up whose operations have streamed, a ride one without users. -/
def Core.releaseBanks (k : Core) : Core :=
  [0, 1].foldl (fun k b =>
    let x := k.bank b
    if x.st = 2 ∧ x.releasing ∧ !k.bankInUse b then k.setBank b x.free
    else
      match x.ride with
      | some r => if x.st = 2 ∧ r.users.isEmpty ∧ !k.bankInUse b then k.setBank b x.free else k
      | none => k) k

/-- A group gives up its private bank (R179). -/
def Core.giveUpBank (k : Core) (owner : Nat) : Core :=
  (match k.privateBank owner with
   | some b => k.setBank b { k.bank b with releasing := true }
   | none => k).releaseBanks

/-- A group that has left its ride or streamed one operation is no longer a user of the block (R179). -/
def Core.dropUser (k : Core) (owner : Nat) (which : RideBlock → Bool) : Core :=
  let drop (r : RideBlock) : RideBlock := if which r then { r with users := r.users.filter fun u => u != owner } else r
  Core.releaseBanks { k with banks := k.banks.map fun b => { b with ride := b.ride.map drop }, landing := k.landing.map drop }

/-! ### Layouts (R177, R186) -/

/-- Row bytes of 128 elements with their scales (R177). -/
def rowBytes (fmt : Nat) : Nat := elemBytes fmt 128 + (if hasScale fmt then 4 else 0)
/-- The chunk width of two formats (R42, R180). -/
def chunkWidth (a w : Nat) : Nat := if a < 2 ∨ w < 2 then 8 else 32

/-- The elements and scales of a row held as one little-endian number of row bytes. -/
def rowElems (fmt n image : Nat) : List Nat := (List.range n).map fun k => elemAt (elemBits fmt) image k
/-- The four scales of a row; 1 for the formats without. -/
def rowScales (fmt image : Nat) : List Nat :=
  if hasScale fmt then (List.range 4).map fun b => image / 256 ^ (elemBytes fmt 128 + b) % 256 else [127, 127, 127, 127]

/-- Where byte c of row i of a register source lies (R186): the word, 32·register + lane. Its byte of the word is c mod 4. -/
def regRowWord (fmt h r i c : Nat) : Nat :=
  let w := (elemBytes fmt 128 + 127) / 128
  if c < elemBytes fmt 128 then 32 * (r + i * w) + c / 4
  else 32 * (r + h * w) + (4 * i + (c - elemBytes fmt 128)) / 4

/-- Byte c of row i of a register source (R186). -/
def Group.regRowByte (x : Group) (fmt h r i c : Nat) : Nat := (sget x.v (regRowWord fmt h r i c)).toNat / 256 ^ (c % 4) % 256

/-- A row of a register source as one number. -/
def Group.regRow (x : Group) (fmt h r i : Nat) : Nat → Nat
  | 0 => 0
  | n + 1 => x.regRow fmt h r i n + 256 ^ n * x.regRowByte fmt h r i n

/-- Row i of an operation's A operand. -/
def Core.aRow (k : Core) (op : MatOp) (i : Nat) : Nat :=
  match op.daReg with
  | some r => ((k.groups.find? op.gid).getD Group.empty).regRow op.fmta op.height r i (rowBytes op.fmta)
  | none =>
    match descOf op.daDesc.1 op.daDesc.2 with
    | some d => k.descRead op.slot d 0 i 0 (rowBytes op.fmta)
    | none => 0

/-! ### Chunks and slices (R42, R43) -/

/-- An element of an operand with the flush of R41: at its scaled value. -/
def operand (ftz : Bool) (fmt scale code : Nat) : Num :=
  let v := elemValue fmt code
  if ftz && (v.scale ((scale : Int) - 127)).subnormal32 then .fin v.isNeg 0 0 else v

/-- The products of a chunk. -/
def products : List Num → List Num → List Num
  | a :: as, w :: ws => a.mul w :: products as ws
  | _, _ => []

/-- One chunk: the exact sum of products, the scales, one rounding to FP32, the flush (R42, R43). -/
def chunkSum (ftz : Bool) (as ws : List Num) (sa sw : Nat) : Nat × Flags :=
  let sum := if sa = 0xFF ∨ sw = 0xFF then .nan else sumNum .rne (products as ws)
  flushOut ftz fp32 (fp32.convert .rne (sum.scale ((sa : Int) - 127 + ((sw : Int) - 127))))

/-- One chunk added to an accumulator value. -/
def accAdd (ftz : Bool) (acc : Nat) (t : Nat × Flags) : Nat × Flags :=
  let r := deliver ftz fp32 .rne (sumNum .rne [fp32.value acc, fp32.value t.1])
  (r.1, t.2.or r.2)

/-- The chunks of one output element in ascending K order; the scale of a chunk is that of the block that holds it. -/
def dotChunks (ftz : Bool) (width : Nat) (sa sw : List Nat) : Nat → Nat → List Num → List Num → Nat × Flags → Nat × Flags
  | 0, _, _, _, acc => acc
  | n + 1, k, as, ws, acc =>
    let r := accAdd ftz acc.1 (chunkSum ftz (as.take width) (ws.take width) ((sa[k / 32]?).getD 127) ((sw[k / 32]?).getD 127))
    dotChunks ftz width sa sw n (k + width) (as.drop width) (ws.drop width) (r.1, acc.2.or r.2)

/-- A row or column of operand values, with its scales. -/
structure Vec where
  vals : List Num
  scales : List Nat
deriving DecidableEq, Repr

/-- A row or column of n elements from its bytes. -/
def vecOf (ftz : Bool) (fmt n image : Nat) : Vec :=
  let scales := rowScales fmt image
  ⟨mapIdxFrom (fun k code => operand ftz fmt ((scales[k / 32]?).getD 127) code) 0 (rowElems fmt n image), scales⟩

/-- The columns of a block held in the layout of R177: n columns of kk elements. -/
def columnsOf (ftz : Bool) (fmt kk n pitch : Nat) (bytes : Map Byte) : List Vec :=
  (List.range n).map fun j => vecOf ftz fmt kk (getBytes (takeRange bytes (j * pitch) pitch) (j * pitch) pitch)

/-- One row of an operation accumulated over all columns. -/
def accRow (k : Core) (op : MatOp) (width kk : Nat) (cols : List Vec) (i : Nat) : Core × Flags :=
  let a := vecOf op.ftz op.fmta kk (k.aRow op i)
  (cols.zipIdx).foldl (fun (r : Core × Flags) (wj : Vec × Nat) =>
    let v := dotChunks op.ftz width a.scales wj.1.scales (kk / width) 0 a.vals wj.1.vals (r.1.accGet op.acc i wj.2, .none)
    (r.1.accPut op.acc i wj.2 v.1, r.2.or v.2)) (k, .none)

/-- The bank of an operation (R189); one whose bank CTXSV has released uses its group's next private bank. -/
def Core.weightBank (k : Core) (op : MatOp) : Option Bank :=
  match op.bank, op.ride with
  | some b, _ => some (k.bank b)
  | none, some q => k.banks.find? fun b => match b.ride with | some r => r.serves q | none => false
  | none, none => (k.privateBank op.owner).map k.bank

/-- The adapter block of an ADPT, in tile 0 of DB (R201): n rows of 2·kk bytes. -/
def Core.adapterBlock (k : Core) (op : MatOp) (kk n : Nat) : Map Byte :=
  match op.db.bind fun d => descOf d.1 d.2 with
  | some d => (List.range n).foldl (fun m j => putBytes m (j * (2 * kk)) (2 * kk) (k.descRead op.slot d 0 j 0 (2 * kk))) []
  | none => []

/-- The weight block of an operation: format, pitch and bytes, of its bank, or for ADPT of the sequencer's buffer (R189, R201). -/
def Core.weights (k : Core) (op : MatOp) : Nat × Nat × Map Byte :=
  match op.adpt with
  | some (kk, _) => (op.fmta, 2 * kk, op.buffer.getD [])
  | none =>
    match k.weightBank op with
    | some b => (b.fmt, rowBytes b.fmt, b.bytes)
    | none => (0, 256, [])

/-- K and N of an operation. -/
def MatOp.dims (op : MatOp) : Nat × Nat := op.adpt.getD (128, 128)

/-- The next slice of an operation: eight rows (R190, R200). -/
def Core.runSlice (k : Core) (op : MatOp) : Core × MatOp :=
  let (kk, n) := op.dims
  let (wf, pitch, bytes) := k.weights op
  let cols := columnsOf op.ftz wf kk n pitch bytes
  let width := chunkWidth op.fmta wf
  let (k, fl) := (List.range 8).foldl (fun (r : Core × Flags) i =>
    let q := accRow r.1 op width kk cols (8 * op.slices + i)
    (q.1, r.2.or q.2)) (k, .none)
  (k, { op with slices := op.slices + 1, flags := op.flags ||| fl.toWord.toNat })

/-- The uncorrectable words of an operation's weight block, by the sectors they came from. -/
def Core.weightsBad (k : Core) (op : MatOp) : List Nat :=
  if op.adpt.isSome then [] else ((k.weightBank op).map fun b => b.bad).getD []

/-- Whether the adapter block that an ADPT reads at its start has an uncorrectable word (R192, R201). -/
def Core.adapterUncorr (k : Core) (op : MatOp) : Bool :=
  match op.adpt, op.db.bind fun d => descOf d.1 d.2 with
  | some (kk, n), some d => op.buffer.isNone && (List.range n).any fun j => k.descBad op.slot d 0 j 0 (2 * kk)
  | _, _ => false

/-- Whether the reads of an operation's next slice meet an uncorrectable word, of the A operand with its scales, the accumulator or the
weights (R192). -/
def Core.sliceBad (k : Core) (op : MatOp) : Bool :=
  let x := (k.groups.find? op.gid).getD Group.empty
  (((List.range 8).map fun i => 8 * op.slices + i).any fun i =>
    (match op.daReg with
     | some r => !x.badV.isEmpty && (List.range (rowBytes op.fmta)).any fun c => x.badV.contains (regRowWord op.fmta op.height r i c)
     | none =>
       match descOf op.daDesc.1 op.daDesc.2 with
       | some d => k.descBad op.slot d 0 i 0 (rowBytes op.fmta)
       | none => false) ||
    (!k.badAcc.isEmpty && (List.range op.dims.2).any fun j => k.badAcc.contains (accKey op.acc i j))) ||
  !(k.weightsBad op).isEmpty

/-- Up to n slices of an operation; true at the end when one met an uncorrectable word. -/
def Core.runSlices (k : Core) (op : MatOp) : Nat → Core × MatOp × Bool
  | 0 => (k, op, false)
  | n + 1 =>
    if op.height ≤ 8 * op.slices then (k, op, false)
    else if k.sliceBad op then (k, op, true)
    else let r := k.runSlice op; r.1.runSlices r.2 n

/-! ### Epilogue (R193, R194) -/

/-- Fields of a stage word (R194). -/
def stageCode (w : Nat) : Nat := bits w 31 27
def stageArg (w : Nat) : Nat := bits w 26 24
def stageOpd (w : Nat) : Nat := bits w 18 0

/-- Whether a stage word is in the table of R194. -/
def stageOk (w : Nat) : Bool :=
  let a := stageArg w
  let o := stageOpd w
  bits w 23 19 == 0 &&
  match stageCode w with
  | 1 => a == 0 && o % 4 == 0
  | 2 => a == 0 && o % 4 == 0
  | 3 => decide (a ≤ 2) && decide (o ≤ 3)
  | 4 => decide (a ≤ 3) && o == 0
  | 5 => decide (a ≤ 5) && o == 0
  | 6 => decide (a ≤ 3) && o == 0
  | 7 => decide (a ≤ 2) && decide (o ≤ 3)
  | 8 => decide (2 ≤ a) && decide (a ≤ 7) && decide (o ≤ 3)
  | _ => false

/-- Accumulator tiles that a chain reads or writes (R188). -/
def chainTiles (chain : List Nat) : List Nat :=
  chain.filterMap fun w => if stageCode w = 4 ∨ stageCode w = 6 then some (stageArg w % 4) else none

/-- The wide format of ARG in RESID and STORE (R194). -/
def wideArg (a : Nat) : Fmt := match a with | 0 => bf16 | 1 => fp16 | _ => fp32
/-- Its element size in bytes. -/
def wideSize (a : Nat) : Nat := if a = 2 then 4 else 2

/-- x·Φ(x) or x/(1 + e^−x) of a nonzero finite value, rounded once (R194): enclosures at rising precision. -/
def gelu (neg : Bool) (m : Nat) (e : Int) : Nat × Flags :=
  if e + m.log2 ≥ 5 then
    if neg then fp32.roundMag .rne true 0 (-400) true
    else fp32.roundMag .rne false (m * 2 ^ 80 - 1) (e - 80) true
  else
    refine fp32 neg (fun p =>
      let q := p + 384
      let x := toFix q m e
      -- erf(x/√2) = √(2/π)·e^(−x²/2)·Σ x^(2n+1)/(2n+1)!!
      let hlo := x * x / 2 ^ (q + 1)
      let hhi := (x + 1) * (x + 1) / 2 ^ (q + 1) + 1
      let slo := erfTerms q hlo (8 * q) 1 x 0
      let shi := erfTerms q hhi (8 * q) 1 (x + 1) 0 + 2 ^ 800 / 2 ^ 50 * (q + 64)
      let (k, ex) := expFix q hlo hhi
      let elo := ex.lo.toNat * 2 ^ k
      let ehi := ex.hi.toNat * 2 ^ k
      let pi := piMid q
      let rlo := isqrt (2 ^ (3 * q + 1) / (pi + piErr q).toNat)
      let rhi := isqrt (2 ^ (3 * q + 1) / (pi - piErr q).toNat) + 1
      let one := 2 ^ q
      let flo := rlo * slo / ehi
      let fhi := min one (rhi * shi / elo + 1)
      -- |x|·(1 ± erf)/2
      if neg then ⟨x * (one - fhi), (x + 1) * (one - flo), -(2 * q) - 1⟩
      else ⟨x * (one + flo), (x + 1) * (one + fhi), -(2 * q) - 1⟩) [900, 1500]

/-- x/(1 + e^−x), as `gelu`. -/
def silu (neg : Bool) (m : Nat) (e : Int) : Nat × Flags :=
  if e + m.log2 ≥ 8 then
    if neg then fp32.roundMag .rne true 0 (-400) true else fp32.roundMag .rne false (m * 2 ^ 80 - 1) (e - 80) true
  else
    refine fp32 neg (fun p =>
      let q := p + 512
      let x := toFix q m e
      let (k, y) := expFix q x (x + 1)
      let elo := y.lo.toNat * 2 ^ k
      let ehi := y.hi.toNat * 2 ^ k
      if neg then ⟨x * (2 ^ (2 * q) / (ehi + 2 ^ q)), (x + 1) * (2 ^ (2 * q) / (elo + 2 ^ q) + 1), -(2 * q)⟩
      else ⟨x * (elo * 2 ^ q / (elo + 2 ^ q)), (x + 1) * (ehi * 2 ^ q / (ehi + 2 ^ q) + 1), -(2 * q)⟩) precisions

/-- The activation functions of R194 on a value that is not NaN. -/
def activation (a : Nat) (v : Num) : Nat × Flags :=
  match a, v with
  | _, .nan => (fp32.canon, .none)
  | 0, .inf neg => (if neg then 0 else 0x7F800000, .none)
  | 0, .fin neg _ _ => if neg || v.isZero then (0, .none) else fp32.convert .rne v
  | 1, .inf neg => (if neg then 0x80000000 else 0x7F800000, .none)
  | 1, .fin neg m e => if m = 0 then (if neg then 0x80000000 else 0, .none) else gelu neg m e
  | 2, .inf neg => (if neg then 0x80000000 else 0x7F800000, .none)
  | 2, .fin neg m e => if m = 0 then (if neg then 0x80000000 else 0, .none) else silu neg m e
  | 3, _ => Func.tanh.eval fp32 v
  | 4, _ => Func.sigm.eval fp32 v
  | _, .inf neg => (if neg then 0 else 0x7F800000, .none)
  | _, .fin neg m e => if neg then (0, .none) else fp32.convert .rne (.fin false (m * m) (e + e))

/-- The working values of an operation: those of its last stage, at first the accumulator's (R193). -/
def Core.workValue (k : Core) (op : MatOp) (i j : Nat) : Nat :=
  if op.stages = 0 then k.accGet op.acc i j else (sget op.work (128 * i + j)).toNat

/-- One stage on one element: the new working value and its flags. -/
def Core.stageValue (k : Core) (op : MatOp) (w i j : Nat) : Nat × Flags :=
  let f (code : Nat) : Num := flushIn op.ftz (fp32.value code)
  let raw := k.workValue op i j
  let v := f raw
  let vec : Num := f (k.spadRead (k.partBase op.slot + stageOpd w + 4 * j) 4)
  let out (x : Num) : Nat × Flags := deliver op.ftz fp32 .rne x
  match stageCode w with
  | 1 => out (v.mul vec)
  | 2 => out (sumNum .rne [v, vec])
  | 3 =>
    match op.db.bind fun d => descOf d.1 d.2 with
    | some d =>
      let a := stageArg w
      let r := flushIn op.ftz ((wideArg a).value (k.descRead op.slot d (stageOpd w) i (j * wideSize a) (wideSize a)))
      out (sumNum .rne [v, r])
    | none => (raw, .none)
  | 4 => out (sumNum .rne [v, f (k.accGet (stageArg w) i j)])
  | 5 => flushOut op.ftz fp32 (activation (stageArg w) v)
  | _ => (raw, .none)

/-- What a stage writes for one row beside the working values: WACC, STORE, QUANT, whose scales lie where R186 lays those of a row. -/
def Core.stageRow (k : Core) (op : MatOp) (w n i : Nat) : Core × Flags :=
  let vals := (List.range n).map fun j => flushIn op.ftz (fp32.value (k.workValue op i j))
  match stageCode w with
  | 6 => ((List.range n).foldl (fun k j => k.accPut (stageArg w) i j (k.workValue op i j)) k, .none)
  | 7 =>
    match op.db.bind fun d => descOf d.1 d.2 with
    | some d =>
      let a := stageArg w
      let rs := vals.map fun v => deliver op.ftz (wideArg a) .rne v
      let k := (rs.zipIdx).foldl (fun k (r : (Nat × Flags) × Nat) =>
        k.descWrite op.slot d (stageOpd w) i (r.2 * wideSize a) r.1.1 (wideSize a)) k
      (k, rs.foldl (fun a r => a.or r.2) .none)
    | none => (k, .none)
  | 8 =>
    match op.db.bind fun d => descOf d.1 d.2 with
    | some d =>
      let fmt := stageArg w
      let qs := (List.range (n / 32)).map fun b => quantise fmt .rne ((vals.drop (32 * b)).take 32)
      let image := packElems (elemBits fmt) (qs.flatMap fun q => q.2.1)
      let k := k.descWrite op.slot d (stageOpd w) i 0 image (elemBytes fmt n)
      let k := k.descWrite op.slot d (stageOpd w) i (elemBytes fmt 128) (packElems 8 (qs.map fun q => q.1)) (n / 32)
      (k, qs.foldl (fun a q => a.or q.2.2) .none)
    | none => (k, .none)
  | _ => (k, .none)

/-- One stage on all rows (R193, R194). -/
def Core.runStage (k : Core) (op : MatOp) (w : Nat) : Core × MatOp :=
  let n := op.dims.2
  let rows := List.range op.height
  let vals := rows.flatMap fun i => (List.range n).map fun j => (128 * i + j, k.stageValue op w i j)
  let (k, fl) := rows.foldl (fun (r : Core × Flags) i => let q := r.1.stageRow op w n i; (q.1, r.2.or q.2)) (k, .none)
  let work := vals.foldl (fun m e => sput m e.1 (BitVec.ofNat 32 e.2.1)) op.work
  let fl := vals.foldl (fun (a : Flags) e => a.or e.2.2) fl
  (k, { op with stages := op.stages + 1, work := work, flags := op.flags ||| fl.toWord.toNat })

/-- Whether the reads of a stage meet an uncorrectable word (R192). -/
def Core.stageBad (k : Core) (op : MatOp) (w : Nat) : Bool :=
  let n := op.dims.2
  let rows := List.range op.height
  let acc (t : Nat) : Bool := !k.badAcc.isEmpty && rows.any fun i => (List.range n).any fun j => k.badAcc.contains (accKey t i j)
  (op.stages == 0 && acc op.acc) ||
  match stageCode w with
  | 1 => (List.range 512).any fun b => k.badSpad.contains (k.partBase op.slot + stageOpd w + b)
  | 2 => (List.range 512).any fun b => k.badSpad.contains (k.partBase op.slot + stageOpd w + b)
  | 3 =>
    match op.db.bind fun d => descOf d.1 d.2 with
    | some d => rows.any fun i => k.descBad op.slot d (stageOpd w) i 0 (n * wideSize (stageArg w))
    | none => false
  | 4 => acc (stageArg w)
  | _ => false

/-- The stages of an operation from its next one; true at the end when a stage met an uncorrectable word. -/
def Core.runStages (k : Core) (op : MatOp) : List Nat → Core × MatOp × Bool
  | [] => (k, op, false)
  | w :: ws =>
    if k.stageBad op w then (k, op, true)
    else
      let (k, op) := k.runStage op w
      k.runStages op ws

/-! ### Interruption (R190) -/

/-- An operation interrupted at a step boundary: started once more, it goes on with the step after its last one. -/
def MatOp.interrupted (op : MatOp) : MatOp := if op.running then { op with running := false, streamed := false, cut := true } else op

/-- Some operations of a core interrupted. -/
def Core.interrupt (k : Core) (which : MatOp → Bool) : Core := { k with queue := k.queue.map fun o => if which o then o.interrupted else o }

/-! ### Start and completion (R188, R192, R196) -/

/-- Whether two operations name a common tile (R188). -/
def MatOp.sharesTile (a b : MatOp) : Bool :=
  let ta := a.acc :: chainTiles a.chain
  let tb := b.acc :: chainTiles b.chain
  ta.any fun t => tb.contains t

/-- Whether the weight bank of an operation is READY (R188), or no slice is left that needs one. -/
def Core.weightReady (k : Core) (op : MatOp) : Bool :=
  op.adpt.isSome || decide (op.height / 8 ≤ op.slices) ||
  match k.weightBank op with
  | some b => b.st == 2
  | none => false

/-- The operations that an uncorrectable word has ended and that will be resumed (R192): submitted, and earlier than the queue's. -/
def Core.heldSteps (k : Core) : List MatOp := k.groups.flatMap fun g => g.2.step

/-- The oldest queued operation that may start (R188); `earlier` holds those submitted before the list's. -/
def Core.startable (k : Core) (frozen : MatOp → Bool) : List MatOp → List MatOp → Option MatOp
  | _, [] => none
  | earlier, op :: rest =>
    if !op.running && k.weightReady op && !(earlier.any op.sharesTile) && !frozen op then some op
    else k.startable frozen (earlier ++ [op]) rest

/-- An operation of the queue replaced. -/
def Core.setOp (k : Core) (op : MatOp) : Core := { k with queue := k.queue.map fun o => if o.id = op.id then op else o }

/-- A transfer or operation counted by a tag has ended with a stamp (R313, R345). -/
def Tag.drop (t : Tag) (stamp : Nat) : Tag :=
  { t with count := t.count - 1, stamp := some (match t.stamp with | some v => stampMax v stamp | none => stamp) }
/-- One counted by a tag has ended that touched no global memory (R314). -/
def Tag.dec (t : Tag) : Tag := { t with count := t.count - 1 }
/-- One more transfer or operation is counted by a tag. -/
def Tag.add (t : Tag) : Tag := { t with count := t.count + 1, stamp := if t.count = 0 then none else t.stamp }

/-- The group of an operation, if it is still the one that issued it. -/
def Core.opGroup (k : Core) (op : MatOp) : Option Group :=
  (k.groups.find? op.gid).bind fun x => if x.uid = op.owner then some x else none

/-- A core with a group changed, if it is resident. -/
def Core.onGroup (k : Core) (g : Nat) (f : Group → Group) : Core :=
  match k.groups.find? g with
  | some x => { k with groups := k.groups.put g (f x) }
  | none => k

/-- An operation ends: flags merge, the tile is no longer busy, the tag drops (R196). -/
def Core.completeOp (k : Core) (op : MatOp) : Core :=
  let k := { k with queue := k.queue.filter fun o => o.id != op.id }
  match k.opGroup op with
  | none => k
  | some _ => k.onGroup op.gid fun x =>
      let x := { x with fpstat := x.fpstat ||| op.flags }
      match op.tag with
      | some t => x.onTag t fun g => match op.stamp with | some v => g.drop v | none => g.dec
      | none => x

/-- An operation meets an uncorrectable word (R192): it leaves the queue with its completed steps in STEP, and UNCORR is
pending for the group's live lanes, with the sector a weight block's failing word came from. DESIGN CHOICE: TVAL is 0 where the word came
from no memory sector (a register, scratchpad, accumulator or WLOADed word), and the operations of one group that end so are resumed in
the order in which they ended (log 81). -/
def Core.opUncorr (k : Core) (op : MatOp) : Core :=
  let sector := (k.weightsBad op).headD 0
  let k := { k with queue := k.queue.filter fun o => o.id != op.id }
  k.onGroup op.gid fun x =>
    let x := { x with step := x.step ++ [{ op with running := false, streamed := false, cut := false }] }
    x.onLanes x.live fun _ l => { l with pend := l.pend ++ [⟨19, 3, sector, maskOf x.live, none, none⟩] }

end Sys2Proof.Machine
end

