-- ==== Sys2Proof/Machine/Mgmt.lean ====
section
/-!
DEFINITION. The management region (spec/18): its registers (R435, R437, R445, R449), the MSI-X table and its doorbell (R439),
package identity (R441) and the power state (R445 to R447).
-/
namespace Sys2Proof.Machine

/-- The offset of an address in the management region (R435). -/
def mgmtOffset (pa : Nat) : Nat := ofsOf pa - 0x010100000000
/-- Whether an access of n bytes to the management region is admitted (R435). -/
def mgmtAccessOk (pa n : Nat) : Bool := n == 8 && pa % 8 == 0

/-! ### Power (R446) -/

/-- Whether a lane waits in WAITV, NAP or PACQ (R446). -/
def Lane.dozes (k : Lane) : Bool :=
  match k.wait with
  | .waitv _ => true
  | .nap _ => true
  | .permit _ => true
  | _ => false

/-- The condition of S1 (R446). -/
def State.idleS1 (s : State) : Bool :=
  (s.cores.all fun k => k.2.groups.all fun g => g.2.live.all fun l => (g.2.lane l).dozes) &&
  (s.dies.all fun d =>
    (d.2.recs.all fun r => r.2.place != 2 && r.2.place != 3 && r.2.place != 4) && d.2.engine.isEmpty && d.2.kvq.isEmpty &&
    d.2.gathers.isEmpty && d.2.cows.isEmpty && d.2.pubs.isEmpty && d.2.faults.isEmpty &&
    bits d.2.fqptr.toNat 44 32 == bits d.2.fqptr.toNat 12 0) &&
  (s.accesses.all fun a => match a.kind with | .acpIn _ _ => false | .acpOut _ => false | _ => true)

/-- The condition of S2 (R446): no host or peer access in flight. -/
def State.idleS2 (s : State) : Bool :=
  s.accesses.all fun a => a.stage == .issued || a.stage == .parked || s.isOwn a.pa || a.stage == .replying

/-- The condition of S3 (R446). -/
def State.idleS3 (s : State) : Bool :=
  [1, 2, 3].all fun d =>
    (s.cores.all fun k => dieOf k.1 != d || k.2.groups.isEmpty) &&
    (s.die d).ops.isEmpty && (s.die d).recs.isEmpty && (s.die d).seqs.all fun q => q.2.st != 1

/-- The deepest state whose wake latency TOL allows and whose condition holds with those of every shallower state (R446). -/
def State.deepest (s : State) : Nat :=
  let tol := s.lattol.toNat % 2 ^ 32
  if !(decide (1 ≤ tol) && decide (s.noRider + 65536 ≤ s.clk) && s.dies.all fun d => d.2.ridge.passes.all fun p => p.riders.isEmpty) then 0
  else if !(decide (5 ≤ tol) && s.idleS1) then 1
  else if !(decide (200 ≤ tol) && s.idleS2) then 2
  else if !(decide (20000 ≤ tol) && s.idleS3) then 3
  else 4

/-- STATE of LATTOL (R445). -/
def State.power (s : State) : Nat := bits s.lattol.toNat 42 40

/-- A die loses its on-die state and keeps its memory (R446). -/
def State.powerDie (s : State) (d : Nat) : State :=
  let floor := (s.rmeta.filter fun e => s.homeDie (32 * e.1) == d).foldl (fun f e => stampMax f e.2.clock) (s.die d).floor
  { s with cores := s.cores.filter fun k => dieOf k.1 != d, clusters := s.clusters.filter fun k => k.1 / 10 != d,
           dies := s.dies.put d { Die.reset with floor := floor, peak := (s.die d).peak },
           rmeta := s.rmeta.filter fun e => s.homeDie (32 * e.1) != d }

/-- The package enters a power state (R446): STATE, and what S3 loses. -/
def State.enterPower (s : State) (p : Nat) : State :=
  let was := s.power
  let s := { s with lattol := BitVec.ofNat 64 (setBits s.lattol.toNat 42 40 p) }
  if p = 4 ∧ was ≠ 4 then [1, 2, 3].foldl State.powerDie s else s

/-- The package woken by an inbound request, which is performed after the wake (R447). -/
def State.woken (s : State) : State := if s.power = 0 then s else s.enterPower 0

/-! ### Registers (R435, R437, R439, R445) -/

/-- PKGID changes: the package's own memory goes with its region (R262, R435, log 24). -/
def State.rebase (s : State) (p : Nat) : State :=
  let old := s.pkg * 2 ^ 41
  let new := p * 2 ^ 41
  if old = new then s
  else
    let move {α : Type} (unit : Nat) (m : Map α) : Map α :=
      let size := 2 ^ 41 / unit
      let mine := (takeRange m (old / unit) size).map fun e => (e.1 - old / unit + new / unit, e.2)
      let rest := dropRange (dropRange m (old / unit) size) (new / unit) size
      (rest.filter fun e => decide (e.1 < new / unit)) ++ mine ++ rest.filter fun e => decide (new / unit ≤ e.1)
    let line (x : Nat) : Nat := x - old / 128 + new / 128
    { s with
      pkgcfg := BitVec.ofNat 64 (setBits s.pkgcfg.toNat 49 40 p),
      mem := move 1 s.mem, rmeta := move 32 s.rmeta,
      poison := s.poison.map fun x => if decide (old / 32 ≤ x) && decide (x < old / 32 + 2 ^ 36) then x - old / 32 + new / 32 else x,
      dies := s.dies.map fun d => (d.1, { d.2 with
        slices := d.2.slices.map fun l => { l with line := line l.line },
        baseCache := d.2.baseCache.map fun e => (e.1, line e.2) }) }

/-- PKGCFG written (R435): PKGID unless PSLEN is 1, then PSLEN. -/
def State.writePkgcfg (s : State) (v : Nat) : State :=
  let t := if bit s.pkgcfg.toNat 0 then s else s.rebase (bits v 49 40)
  { t with pkgcfg := BitVec.ofNat 64 (setBits t.pkgcfg.toNat 0 0 (v % 2)) }

/-- LATTOL written (R445, R446): TOL, which takes effect at once. -/
def State.writeLattol (s : State) (v : Nat) : State :=
  let t := { s with lattol := BitVec.ofNat 64 (setBits s.lattol.toNat 31 0 (v % 2 ^ 32)) }
  t.enterPower t.deepest

/-- A word of the MSI-X table (R439); every vector is masked after reset (log 16). -/
def State.msixWord (s : State) (i : Nat) : Nat :=
  match s.msix.find? i with
  | some w => w.toNat
  | none => if i % 2 = 1 then 2 ^ 32 else 0

/-- The message of a vector: sent, or pending while the vector is masked (R439). -/
def State.sendVector (s : State) (v : Nat) : State :=
  if bit (s.msixWord (2 * v + 1)) 32 then
    if s.msixPending.contains v then s else { s with msixPending := s.msixPending ++ [v] }
  else
    { s with messages := s.messages ++ [(s.msixWord (2 * v), s.msixWord (2 * v + 1) % 2 ^ 32)],
             msixPending := s.msixPending.filter fun w => w != v }

/-- MSIXDB written (R439). -/
def State.writeMsixdb (s : State) (v : Nat) : State := if v < 2048 then s.sendVector v else s

/-- A word of the MSI-X table written; a vector unmasked with its pending bit set sends its message. -/
def State.writeMsix (s : State) (i v : Nat) : State :=
  let s := { s with msix := s.msix.put i (BitVec.ofNat 64 v) }
  if s.msixPending.contains (i / 2) ∧ !bit (s.msixWord (i / 2 * 2 + 1)) 32 then s.sendVector (i / 2) else s

/-- A 64-bit read of the management region at an 8-aligned offset (R435). -/
def State.mgmtRead (s : State) (o : Nat) : Nat :=
  match o with
  | 0x000 => s.pkgcfg.toNat
  | 0x008 => s.pslstat.toNat
  | 0x010 => s.lattol.toNat
  | 0x018 => 0
  | 0x020 => s.hwin.toNat
  | 0x028 => s.bootstat.toNat
  | 0x030 => s.removed.toNat
  | _ =>
    if 0x8000 ≤ o ∧ o < 0x9000 then (Config.journalWord s.journal.starts (o / 8 % 512)).toNat
    else if 0x100000 ≤ o ∧ o < 0x108000 then s.msixWord ((o - 0x100000) / 8)
    else if 0x108000 ≤ o ∧ o < 0x108100 then
      let w := (o - 0x108000) / 8
      maskOf ((List.range 64).filter fun i => s.msixPending.contains (64 * w + i))
    else 0

/-- A 64-bit write of the management region at an 8-aligned offset (R435). -/
def State.mgmtWrite (s : State) (o v : Nat) : State :=
  match o with
  | 0x000 => s.writePkgcfg v
  | 0x010 => s.writeLattol v
  | 0x018 => s.writeMsixdb v
  | 0x020 => { s with hwin := BitVec.ofNat 64 (bits v 51 36 * 2 ^ 36) }
  | _ => if 0x100000 ≤ o ∧ o < 0x108000 then s.writeMsix ((o - 0x100000) / 8) v else s

end Sys2Proof.Machine
end

