-- ==== Sys2Proof/Machine/Ctl.lean ====
section
/-!
DEFINITION. The instructions of spec/04 (R93 to R105): transfers, masks, votes, spawning and ending fibres, turns, naps
and barriers.
-/
namespace Sys2Proof.Machine

/-! ### Transfers (R50, R94) -/

/-- NOP (R93): no effect. -/
def execNop (s : State) : Host.Outcome State Fault Refusal := s.issue [] fun s c => .done (s.advance c)

/-- Bits [52:0] of a number as a PC (R48). -/
def pcOf (n : Nat) : Pc := BitVec.ofNat 53 n

/-- The target of KIND 0 (R58). -/
def relTarget (f : FB) (pc : Pc) : Pc :=
  pcOf (wrap 53 ((lineOf pc : Int) + 64 * f.lofs.toInt + 4 + 12 * f.slot.toNat))

/-- The target of a transfer for a lane (R58, R94). -/
def fbTarget (f : FB) (x : Group) (pc : Pc) (l : Nat) : Pc := if f.kind then pcOf (x.rd64 f.tgtr l) else relTarget f pc

/-- A fetch at an address that fails to translate for some lanes of the set (R275): the set stalls, and one record without a log entry
is posted (R277). -/
def State.fetchFault (s : State) (c : Ctx) (va : Nat) (lanes : List Nat) (f : XFail) : State :=
  let k := s.core c.core
  let x := s.grp c
  let (pt, vm) := k.roots c.slot
  let l := lanes.headD 0
  let r : FaultRec :=
    { va := va, pc := c.pc.toNat, seqno := x.seqno, rowid := x.rowid (dieOf c.core) l, lanes := maskOf lanes,
      core := c.core, lane := l, kind := 4, stamp := (x.lane l).c, asid := bits pt 11 0, vmid := bits vm 11 0, cause := f.cause,
      slotByte := c.slot * 64 + (if c.mode = .u then 0 else 32) + c.gid, log := 0xFFFF, ipa := f.ipa, gid := c.gid, setLanes := 0 }
  let s := s.onGrp c fun x => x.onLanes c.set fun _ k => { k with wait := .fetch va }
  (s.postFault (dieOf c.core) r).unlatch

/-- What the fetch of a transfer's target line finds (R50): that it may go there, that it traps with a kind, that the line cannot be
translated yet, or that its translation must wait (R267, R283). -/
inductive Target
  | ok
  | trap (kind : Nat)
  | fault (f : XFail)
  | wait
deriving DecidableEq, Repr

/-- Checks 1 and 4 of R69 on the target of a transfer of a running lane (R48, R50). A line whose words are uncorrectable has no TGT bit
to read: a machine check (R51). -/
def State.target (s : State) (c : Ctx) (t : Pc) : Target :=
  if !pcLegal t then .trap 1
  else if s.pageWaits c.core c.slot (lineOf t) then .wait
  else match s.translate c.core c.slot c.mode .fetch (lineOf t) with
    | .error f => .fault f
    | .ok pa => if s.poisoned pa 64 then .trap 23 else if s.tgtSet pa t then .ok else .trap 3

/-- The active lanes whose target a check finds as `bad` says. -/
def State.targetsThat (s : State) (c : Ctx) (target : Nat → Pc) (bad : Target → Bool) : List Nat :=
  c.act.filter fun l => bad (s.target c (target l))

/-- A transfer stopped by a check of its targets, if one fails (R50, R69): misaligned targets first; then a line whose translation must
wait, or that cannot be translated, for which the set stalls at the transfer as a fetch does (R275); then the TGT bits. The transfer has no
effect on any lane. -/
def State.stopTransfer (s : State) (c : Ctx) (target : Nat → Pc) : Option State :=
  let trap (bad : Target → Bool) : Option State :=
    let ls := s.targetsThat c target bad
    if ls.isEmpty then none
    else some ((s.enterTraps c.core c.gid (fun l =>
      ⟨match s.target c (target l) with | .trap k => k | _ => 0, 0, c.pc, (target l).toNat, 0, none⟩) ls).finish c)
  match trap (fun t => t == .trap 1) with
  | some t => some t
  | none =>
    if !(s.targetsThat c target fun t => t == .wait).isEmpty then some (s.skipSet c)
    else match c.act.findSome? fun l => match s.target c (target l) with | .fault f => some (target l, f) | _ => none with
    | some (t, f) =>
      some (s.fetchFault c t.toNat (c.act.filter fun l => (lineOf (target l)) / 8192 == lineOf t / 8192) f)
    | none => trap fun t => t != .ok

/-- Whether the register that a transfer reads its target from can be read (R69): legal, inside the window, not owed, without error. -/
def State.canRead (s : State) (c : Ctx) (us : List Use) : Bool :=
  let x := s.grp c
  !(us.any Use.illegal || us.any (Use.outside x.winsize) || us.any (s.owes c) || (x.tagsBusy us).isSome || c.act.any (x.parityFails us))

/-- The frame of a checked transfer (R50, R69): checks 1 and 4 on its targets come before checks 5 to 9 on its own fields. -/
def State.issueChecked (s : State) (masks : List (Fin 16)) (uses tgt : List Use) (target : Ctx → Group → Nat → Pc)
    (body : State → Ctx → Issued) : Host.Outcome State Fault Refusal :=
  match (s.ctx?.filter fun c => s.canRead c tgt).bind fun c => s.stopTransfer c (target c (s.grp c)) with
  | some t => .next t
  | none => s.issueWith masks (uses ++ tgt) (fun _ _ => true) body

/-- Fields a transfer uses. -/
def fbUses (f : FB) : List Use := if f.kind then [src64 f.tgtr] else []

/-- Whether a transfer stops for its targets (R69). -/
def State.branchFails (s : State) (f : FB) : Bool :=
  ((s.ctx?.filter fun c => s.canRead c (fbUses f)).bind fun c => s.stopTransfer c (fbTarget f (s.grp c) c.pc)).isSome

/-- A transfer (R94): active lanes move, the others go on. -/
def State.transfer (s : State) (f : FB) (lnk : List Use) : Host.Outcome State Fault Refusal :=
  s.issueChecked [] lnk (fbUses f) (fun c x => fbTarget f x c.pc) fun s c =>
    let target := fbTarget f (s.grp c) c.pc
    .done ((s.advance c).onGrp c fun x =>
      let x := if lnk.isEmpty then x else x.wr c f.lnk true fun _ => c.next.toNat
      x.onLanes c.act fun l k => { k with pc := target l })

/-- BRA (R94). -/
def execBra (f : FB) (s : State) : Host.Outcome State Fault Refusal := s.transfer f []
/-- BRX (R94). -/
def execBrx (f : FB) (s : State) : Host.Outcome State Fault Refusal := s.transfer f []
/-- CALL (R94): the link must be an S register or an even V register. -/
def execCall (f : FB) (s : State) : Host.Outcome State Fault Refusal := s.transfer f [{ dst64 f.lnk with noneOk := false }]
/-- RET (R94). -/
def execRet (f : FB) (s : State) : Host.Outcome State Fault Refusal := s.transfer f []

/-! ### Masks (R87, R88, R95 to R99) -/

/-- Issue of an instruction that uses masks and changes only its group. -/
def State.issueMasks (s : State) (masks : List (Fin 16)) (uses : List Use) (f : Ctx → Group → Group) :
    Host.Outcome State Fault Refusal :=
  s.issueWith masks uses (fun _ _ => true) fun s c => .done ((s.advance c).onGrp c (f c))

/-- JOIN (R95). -/
def execJoin (f : FK) (s : State) : Host.Outcome State Fault Refusal :=
  s.issueMasks [f.mask] [] fun c x =>
    let m := x.mask f.mask.val
    x.setMask f.mask.val { m with enrol := m.enrol ||| maskOf c.act, arr := c.act.foldl clearBit m.arr }

/-- LEAVE (R95): it waits while a submission it brings about must wait (R182). -/
def execLeave (f : FK) (s : State) : Host.Outcome State Fault Refusal :=
  s.issueWith [f.mask] [] (fun _ _ => true) fun s c =>
    let s := (s.advance c).onGrp c fun x => c.act.foldl (fun x l => x.leaveMask f.mask.val l) x
    match s.submitAll c.core c.gid with
    | some s => .done s
    | none => .stall

/-- WAITM (R95): a release, so it waits for the lanes' earlier accesses (R298). -/
def execWaitm (f : FK) (s : State) : Host.Outcome State Fault Refusal :=
  s.issueWith [f.mask] [] (fun c _ => decide (c.mode = .u) || decide (10 ≤ f.mask.val)) fun s c =>
    let k := f.mask.val
    let ls := c.act.filter fun l => ((s.grp c).mask k).enrol.testBit l
    if s.mayRelease c.core c.gid 0 ls then
      .done (((s.advance c).retry c ls).onGrp c fun x =>
        ((x.setMask k ((x.mask k).arrive ls fun l => (x.lane l).c)).onLanes ls fun _ l => { l with wait := .waitm k }).releaseMask k)
    else .stall

/-- The ballot of VOTE (R96). -/
def Group.ballot (x : Group) (c : Ctx) (a : Operand) : Nat := maskOf (c.act.filter fun l => x.rd32 a l != 0)

/-- A vote: one value for every active lane (R96). -/
def State.vote (s : State) (f : FK) (r : Ctx → Group → Nat) : Host.Outcome State Fault Refusal :=
  s.issueMasks [] [dst32 f.d, src32 f.a] fun c x => let v := r c x; x.wr c f.d false fun _ => v

/-- VOTE.BALLOT (R96). -/
def execVoteBallot (f : FK) (s : State) : Host.Outcome State Fault Refusal := s.vote f fun c x => x.ballot c f.a
/-- VOTE.ALL (R96). -/
def execVoteAll (f : FK) (s : State) : Host.Outcome State Fault Refusal :=
  s.vote f fun c x => (x.ballot c f.a == maskOf c.act).toNat
/-- VOTE.ANY (R96). -/
def execVoteAny (f : FK) (s : State) : Host.Outcome State Fault Refusal :=
  s.vote f fun c x => (x.ballot c f.a != 0).toNat
/-- VOTE.EQ (R96). -/
def execVoteEq (f : FK) (s : State) : Host.Outcome State Fault Refusal :=
  s.vote f fun c x => (c.act.all fun l => x.rd32 f.a l == x.rd32 f.a c.low).toNat

/-- A new enrolment set for a mask (R98): lanes that leave lose their arrival bit and, waiting, are released, as an acquire of the
arrivals (R87). -/
def Group.mset (x : Group) (k v : Nat) : Group :=
  let m := x.mask k
  let new := v &&& maskOf x.live
  let out := x.live.filter fun l => (x.lane l).wait == .waitm k && !new.testBit l
  let x := x.onLanes out fun _ l => l.passMask m.released
  (x.setMask k { m with enrol := new, arr := m.arr &&& m.enrol &&& new, sig := m.sig &&& new }).releaseMask k

/-- An instruction that gives a mask a new enrolment set; with no active lane it changes nothing (R96, R98). -/
def State.setEnrol (s : State) (masks : List (Fin 16)) (uses : List Use) (k : Nat) (v : Ctx → Group → Nat) :
    Host.Outcome State Fault Refusal :=
  s.issueWith masks uses (fun _ _ => true) fun s c =>
    let s := s.advance c
    if c.act.isEmpty then .done s
    else match (s.onGrp c fun x => x.mset k (v c x)).submitAll c.core c.gid with
      | some s => .done s
      | none => .stall

/-- VOTE.MASK (R96). -/
def execVoteMask (f : FK) (s : State) : Host.Outcome State Fault Refusal :=
  s.setEnrol [f.mask] [src32 f.a] f.mask.val fun c x => x.ballot c f.a

/-- The operand of MSET (R98): the literal, or the register in the lowest active lane. -/
def msetWord (f : FK) (c : Ctx) (x : Group) : Nat := if f.a = .none then f.imm.toNat else x.rd32 f.a c.low

/-- MSET.MOV (R98). -/
def execMsetMov (f : FK) (s : State) : Host.Outcome State Fault Refusal :=
  s.setEnrol [f.mask] [src32 f.a] f.mask.val fun c x => msetWord f c x
/-- MSET.OR (R98). -/
def execMsetOr (f : FK) (s : State) : Host.Outcome State Fault Refusal :=
  s.setEnrol [f.mask, f.mask2] [src32 f.a] f.mask.val fun c x => (x.mask f.mask2.val).enrol ||| msetWord f c x
/-- MSET.AND (R98). -/
def execMsetAnd (f : FK) (s : State) : Host.Outcome State Fault Refusal :=
  s.setEnrol [f.mask, f.mask2] [src32 f.a] f.mask.val fun c x => (x.mask f.mask2.val).enrol &&& msetWord f c x
/-- MSET.ANDN (R98). -/
def execMsetAndn (f : FK) (s : State) : Host.Outcome State Fault Refusal :=
  s.setEnrol [f.mask, f.mask2] [src32 f.a] f.mask.val fun c x =>
    (x.mask f.mask2.val).enrol &&& ((2 ^ 32 - 1) ^^^ msetWord f c x)

/-- ELECT among candidates (R97). -/
def Group.elected (x : Group) (c : Ctx) (d : Operand) (ls : List Nat) : Group :=
  x.wr c d false fun l => (ls.head? == some l).toNat

/-- ELECT (R97). -/
def execElect (f : FK) (s : State) : Host.Outcome State Fault Refusal :=
  s.issueMasks [] [dst32 f.d] fun c x => x.elected c f.d c.act
/-- ELECT.IN (R97). -/
def execElectIn (f : FK) (s : State) : Host.Outcome State Fault Refusal :=
  s.issueMasks [f.mask] [dst32 f.d] fun c x =>
    x.elected c f.d (c.act.filter fun l => (x.mask f.mask.val).enrol.testBit l)

/-- MGET (R99). -/
def execMget (f : FK) (s : State) : Host.Outcome State Fault Refusal :=
  s.issueMasks [f.mask] [dst32 f.d] fun c x => x.wr c f.d false fun _ => (x.mask f.mask.val).enrol
/-- MGET.ARR (R99). -/
def execMgetArr (f : FK) (s : State) : Host.Outcome State Fault Refusal :=
  s.issueMasks [f.mask] [dst32 f.d] fun c x => x.wr c f.d false fun _ => (x.mask f.mask.val).arr
/-- MGET.LIVE (R99). -/
def execMgetLive (f : FK) (s : State) : Host.Outcome State Fault Refusal :=
  s.issueMasks [] [dst32 f.d] fun c x => x.wr c f.d false fun _ => maskOf x.live

/-! ### Spawning and ending (R75, R76, R80, R100, R101, R107) -/

/-- The pipeline of a core with the fewest resident groups, the lowest on a tie (R75). -/
def Core.freePipe (k : Core) : Nat :=
  let n (p : Nat) : Nat := (k.groups.filter fun g => g.2.pipe == p).length
  [1, 2, 3].foldl (fun b p => if n p < n b then p else b) 0

/-- The free granules of a core, ascending (R106, R108). -/
def Core.freeGranules (k : Core) : List Nat :=
  (List.range 96).filter fun g => !(k.groups.any fun x => x.2.window.contains g)

/-- The lowest free GROUPID (R75). -/
def Core.freeGid (k : Core) : Option Nat := (List.range 24).find? fun g => (k.groups.find? g).isNone

/-- GMAX of a slot (R78). -/
def Core.gmax (k : Core) (slot : Nat) : Nat := min 24 (bits ((k.slotcfg[slot]?).getD 0).toNat 36 32)

/-- Groups of a slot. -/
def Core.inSlot (k : Core) (slot : Nat) : Nat := (k.groups.filter fun g => g.2.slot == slot).length

/-- Whether a core may hold one more group of a slot with a window of n granules (R80). -/
def Core.admits (k : Core) (slot n : Nat) : Bool :=
  decide (k.groups.length < 24) && decide (k.inSlot slot < k.gmax slot) && decide (n ≤ k.freeGranules.length)

/-- A core with a group created on it: GROUPID, pipeline, stamp and zeroed granules (R75, R107), and the GROUPID. -/
def Core.create (k : Core) (uid slot n : Nat) (f : Nat → Group) : Core × Nat :=
  let gid := k.freeGid.getD 0
  let x := f gid
  let x := { x with gid := gid, slot := slot, pipe := k.freePipe, stamp := k.counter, uid := uid, window := k.freeGranules.take n }
  ({ k with groups := k.groups.put gid x, counter := k.counter + 1 }, gid)

/-- The fibre of a spawned lane (R76, R100, R294). -/
def spawnedLane (mode : Mode) (pc : Pc) (v : Nat) : Lane :=
  { Lane.empty with live := true, pc := pc, mode := mode, c := v, h := v, p := v, startCheck := true }

/-- The group SPAWN creates (R76, R424). -/
def spawnedGroup (c : Ctx) (x : Group) (target : Nat → Pc) : Group :=
  let v := x.maxC c.act
  { Group.empty with
    v := (List.range 32).foldl (fun m l => sput m l (BitVec.ofNat 32 x.gid)) [],
    lanes := (List.range 32).map fun l => if c.act.contains l then spawnedLane c.mode (target l) v else Lane.empty,
    opid := x.opid, tenant := x.tenant, fpctl := x.fpctl, current := c.low, idem := x.idem, parent := some x.uid }

/-- SPAWN (R100). -/
def execSpawn (f : FB) (s : State) : Host.Outcome State Fault Refusal :=
  s.issue (dst32 f.lnk :: fbUses f) fun s c =>
    let k := s.core c.core
    let x := s.grp c
    if c.act.isEmpty then .done (s.advance c)
    else if !s.mayRelease c.core c.gid 0 c.act then .stall
    else if !k.admits c.slot x.window.length then
      .done ((s.advance c).onGrp c fun x => x.wr c f.lnk false fun _ => 0xFFFFFFFF)
    else
      let (k, gid) := k.create s.nextId c.slot x.window.length fun _ => spawnedGroup c x (fbTarget f x c.pc)
      let s := { s.setCore c.core k with nextId := s.nextId + 1 }
      .done ((s.advance c).onGrp c fun x => x.wr c f.lnk false fun _ => gid)

/-- Whether an access is a store for EXIT (R101): everything but a load, a WAITV and a copy-in. -/
def Access.isStore (a : Access) : Bool :=
  match a.kind with
  | .load _ => false
  | .waitv _ => false
  | .acpIn _ _ => false
  | .proj _ _ _ => false
  | .again _ => false
  | .commit _ _ _ => false
  | _ => true

/-- Whether a lane has a parked access or an unperformed store (R101). -/
def State.hasUnfinished (s : State) (core gid l : Nat) : Bool :=
  (s.accesses.any fun a =>
    a.core == core && a.gid == gid && a.lane == l && !a.orphan && !a.tx &&
    (a.stage == .parked || (a.stage != .replying && a.isStore))) ||
  ((s.die (dieOf core)).pubs.any fun p => p.req.core == core && p.req.gid == gid && p.req.lane == l && !p.req.orphan)

/-- The cluster whose fallback permit a core uses (R331); a pager-corner core, which belongs to no cluster, has one alone. -/
def txCluster (core : Nat) : Nat := (clusterOf core).getD core

/-- An irrevocable run ends (R337): its locks are freed and the fallback permit that it holds passes on, as a release. -/
def State.endIrrev (s : State) (core gid l : Nat) : State :=
  let k := (s.group core gid).lane l
  if k.tx.active && k.tx.irrev then
    let s := s.onCluster (k.tx.permit.getD (txCluster core)) fun q => { q with fallback := none, fallbackStamp := some k.c }
    s.onLane core gid l fun k =>
      { k with tx := { k.tx with active := false, irrev := false, depth := 0, count := 0, code := 0, locks := [], permit := none } }
  else s

/-- Whether an access is one of the commits that a TEND waits for. -/
def AccKind.ofTend (q : Nat) : AccKind → Bool
  | .commit r _ _ => r == q
  | _ => false

/-- A lane that a TEND has kept waiting goes on: past the TEND, or from its abort target. -/
def Lane.pastTend (k : Lane) (q : Nat) (aborted : Bool) : Lane :=
  if k.wait = .reply q then { k with wait := .none, pc := if aborted then k.pc else nextPc k.pc } else k

/-- A commit that failed to translate is over (R335). The lanes of its TEND wait for the last one; then the mask's enrolment set becomes
the lanes that aborted there, and all of them go on. -/
def State.tendOver (s : State) (a : Access) : State :=
  match a.kind with
  | .commit q m aborted =>
    if s.accesses.any (fun b => b.kind.ofTend q) then s.onLane a.core a.gid a.lane fun k => if k.live then { k with wait := .reply q } else k
    else
      let t := s.onGroup a.core a.gid fun x =>
        (x.mset m aborted).onLanes x.live fun l k => (if l = a.lane then { k with wait := .reply q } else k).pastTend q (aborted.testBit l)
      (t.submitAll a.core a.gid).getD t
  | _ => s

/-- The fibres of some lanes end (R101, R341): transaction logs and trap stacks are discarded, masks are left, replies still to
come go nowhere. -/
def State.endLanes (s : State) (core gid : Nat) (ls : List Nat) : State :=
  let mine (a : Access) : Bool := a.core == core && a.gid == gid && ls.contains a.lane
  let s := ls.foldl (fun s l => s.endIrrev core gid l) s
  let left := (s.accesses.filter fun a => !(mine a && a.tx)).map fun a =>
    if mine a then { a with orphan := true, dest := .none } else a
  let ended := s.accesses.filter fun a => mine a && a.tx
  let s := { s with accesses := left }
  let s := s.onGroup core gid fun x =>
    let x := (List.range 12).foldl (fun x k => ls.foldl (fun x l => x.leaveMask k l) x) x
    x.onLanes ls fun _ _ => Lane.empty
  ended.foldl State.tendOver s

/-! ### Turns and naps (R102, R103) -/

/-- The group's turn ends: the next runnable set in rotation order becomes current (R102). -/
def Group.yieldTurn (x : Group) : Group :=
  match x.nextSet x.current with
  | some t => if t.contains x.current then x else { x with current := t.headD 0, turn := 0 }
  | none => x

/-- YIELD (R102). -/
def execYield (s : State) : Host.Outcome State Fault Refusal :=
  s.issueGroup [] fun c x => if c.act.isEmpty then x else x.yieldTurn

/-- YIELD.AGE (R102). -/
def execYieldAge (s : State) : Host.Outcome State Fault Refusal :=
  s.issue [] fun s c =>
    let s := s.advance c
    if c.act.isEmpty then .done s
    else
      let n := (s.core c.core).counter
      .done ((s.onCore c.core fun k => { k with counter := n + 1 }).onGrp c fun x => { x with stamp := n })

/-- The clk of NAP (R103). -/
def napTime (f : FI) (x : Group) (l : Nat) : Nat := min (x.rd32 f.a l + f.imm.toNat) (2 ^ 32 - 1)

/-- NAP (R103): a time of 0 acts as YIELD. -/
def execNap (f : FI) (s : State) : Host.Outcome State Fault Refusal :=
  s.issue [src32 f.a] fun s c =>
    let until_ := s.clk + Config.napExtra s.free % 65
    let naps := c.act.filter fun l => napTime f (s.grp c) l != 0
    let time := napTime f (s.grp c)
    .done (((s.draw.advance c).retry c naps).onGrp c fun x =>
      let x := x.onLanes naps fun l k => { k with wait := .nap (until_ + time l) }
      if naps.length < c.act.length then x.yieldTurn else x)

/-! ### Arrival barriers (R90, R91, R104) -/

/-- An arrival-barrier word (R90). -/
structure ArrWord where
  expect : Nat
  pend : Nat
  phase : Nat
deriving DecidableEq, Repr

/-- The word at a scratchpad address. -/
def Core.arrWord (k : Core) (p : Nat) : ArrWord :=
  let w := k.spadRead p 8
  ⟨bits w 47 32, bits w 31 16, bits w 15 0⟩

/-- EXPECT, PEND and PHASE stored; bits [63:48] stay. -/
def Core.putArrWord (k : Core) (p : Nat) (w : ArrWord) : Core :=
  k.spadWrite p 6 (w.expect * 2 ^ 32 + w.pend * 2 ^ 16 + w.phase)

/-- The hidden stamps of a word: of the current and of the completed phase, where there is one (R90). -/
def Core.hiddenStamps (k : Core) (p : Nat) : Option Nat × Option Nat :=
  let v := (sget k.hidden p).toNat
  (if bit v 80 then some (v % 2 ^ 40) else none, if bit v 81 then some (v / 2 ^ 40 % 2 ^ 40) else none)

/-- The hidden stamps of a word changed. -/
def Core.setHidden (k : Core) (p : Nat) (cur done : Option Nat) : Core :=
  let v (o : Option Nat) : Nat := o.elim 0 fun x => x % 2 ^ 40
  { k with hidden := sput k.hidden p (BitVec.ofNat 82 (v cur + v done * 2 ^ 40 + cur.isSome.toNat * 2 ^ 80 + done.isSome.toNat * 2 ^ 81)) }

/-- An acquire of a stamp that may be absent. -/
def Lane.acquire? (k : Lane) (v : Option Nat) : Lane := v.elim k k.acquire

/-- The lanes of a group that await a word in a phase (or in any) are released with a new phase and a stamp (R91). -/
def Group.releaseAwait (x : Group) (p : Nat) (phase : Option Nat) (new : Nat) (v : Option Nat) : Group :=
  x.live.foldl (fun x l =>
    match (x.lane l).wait with
    | .await w t d =>
      if w = p ∧ (phase = none ∨ phase = some t) then
        (x.put32 d l new).onLane l fun k => { k.acquire? v with wait := .none, pc := nextPc k.pc }
      else x
    | _ => x) x

/-- One arrival of n at a word by a lane with a clock: the core after it, and the value of D (R104). -/
def Core.arriveAt (k : Core) (p n clock : Nat) : Core × Nat :=
  let w := k.arrWord p
  if w.expect = 0 then (k, w.phase + 0x40000000)
  else
    let (f, m) := if n > w.pend then (0x80000000, w.pend) else (0, n)
    let d := w.phase + f
    let (cur, done) := k.hiddenStamps p
    let cur := if m = 0 then cur else some (cur.elim clock fun v => stampMax v clock)
    let pend := w.pend - m
    if m > 0 ∧ pend = 0 then
      let new := (w.phase + 1) % 2 ^ 16
      let k := (k.putArrWord p { w with pend := w.expect, phase := new }).setHidden p none cur
      (k.mapGroups fun g => g.releaseAwait p (some w.phase) new cur, d)
    else ((k.putArrWord p { w with pend := pend }).setHidden p cur done, d)

/-- The check of an arrival-barrier address, then the instruction (R104): its physical address is given. -/
def State.atWord (s : State) (imm : BitVec 32) (uses : List Use) (release : Ctx → List Nat)
    (f : State → Ctx → Nat → State) : Host.Outcome State Fault Refusal :=
  s.issue uses fun s c =>
    let a := imm.toNat
    if c.act.isEmpty then .done (s.advance c)
    else if a % 8 ≠ 0 then .done (s.spadTrapAll c causeAlign a)
    else match (s.core c.core).spadFail c.slot a 8 with
      | some e => .done (s.spadTrapAll c e a)
      | none =>
        if s.mayRelease c.core c.gid 0 (release c) then .done (f (s.advance c) c ((s.core c.core).partBase c.slot + a))
        else .stall

/-- BARI (R104). -/
def execBari (f : FI) (s : State) : Host.Outcome State Fault Refusal :=
  s.atWord f.imm [src32 f.a] (fun c => [c.low]) fun s c p =>
    let x := s.grp c
    let n := x.rd32 f.a c.low % 2 ^ 16
    let v := (x.lane c.low).c
    s.onCore c.core fun k =>
      ((k.spadWrite p 8 (n * 2 ^ 32 + n * 2 ^ 16)).setHidden p (some v) (some v)).mapGroups fun g => g.releaseAwait p none 0 (some v)

/-- The arrivals of lanes in ascending order, and the value of D of each (R104). -/
def State.arrivals (s : State) (c : Ctx) (p : Nat) (n : Nat → Nat) : List Nat → State × List (Nat × Nat)
  | [] => (s, [])
  | l :: ls =>
    let (k, d) := (s.core c.core).arriveAt p (n l) ((s.grp c).lane l).c
    let (s, ds) := (s.setCore c.core k).arrivals c p n ls
    (s, (l, d) :: ds)

/-- The value for a lane in a list of values by lane. -/
def valueFor (ds : List (Nat × Nat)) (l : Nat) : Nat := ((ds.find? fun e => e.1 == l).map fun e => e.2).getD 0

/-- ARRIVE (R104). -/
def execArrive (f : FI) (s : State) : Host.Outcome State Fault Refusal :=
  s.atWord f.imm [dst32 f.d, src32 f.a] (fun c => c.act) fun s c p =>
    let x := s.grp c
    let (s, ds) := s.arrivals c p (fun l => x.rd32 f.a l % 2 ^ 16) c.act
    s.onGrp c fun x => x.wr c f.d false fun l => valueFor ds l

/-- ARRIVE.ONE (R104). -/
def execArriveOne (f : FI) (s : State) : Host.Outcome State Fault Refusal :=
  s.atWord f.imm [dst32 f.d, src32 f.a] (fun c => [c.low]) fun s c p =>
    let x := s.grp c
    let (s, ds) := s.arrivals c p (fun l => x.rd32 f.a l % 2 ^ 16) [c.low]
    s.onGrp c fun x => x.wr c f.d false fun _ => valueFor ds c.low

/-- AWAIT (R104): lanes whose phase is over pass, the others wait. -/
def execAwait (f : FI) (s : State) : Host.Outcome State Fault Refusal :=
  s.atWord f.imm [dst32 f.d, src32 f.a] (fun _ => []) fun s c p =>
    let x := s.grp c
    let w := (s.core c.core).arrWord p
    let v := ((s.core c.core).hiddenStamps p).2
    let waits := c.act.filter fun l => x.rd32 f.a l % 2 ^ 16 == w.phase
    let passes := c.act.filter fun l => x.rd32 f.a l % 2 ^ 16 != w.phase
    (s.retry c waits).onGrp c fun x =>
      let x := x.onLanes waits fun l k => { k with wait := .await p w.phase (c.destOf f.d l) }
      (passes.foldl (fun x l => x.put32 (c.destOf f.d l) l w.phase) x).onLanes passes fun _ k => k.acquire? v

/-- AWAIT.TEST (R104). -/
def execAwaitTest (f : FI) (s : State) : Host.Outcome State Fault Refusal :=
  s.atWord f.imm [src32 f.a] (fun _ => []) fun s c p =>
    let w := (s.core c.core).arrWord p
    let v := ((s.core c.core).hiddenStamps p).2
    s.onGrp c fun x =>
      let past (l : Nat) : Bool := x.rd32 f.a l % 2 ^ 16 != w.phase
      let y := x.wrPred c f.pd past
      y.onLanes (c.act.filter past) fun _ k => k.acquire? v

/-! ### Core and cluster barriers (R92, R105) -/

/-- Active lanes wait at a barrier; each is a release, so their earlier accesses must be over (R92, R298). -/
def State.waitBarrier (s : State) (c : Ctx) (scope : Nat) (w : Wait) : Issued :=
  if s.mayRelease c.core c.gid scope c.act then
    .done (((s.advance c).retry c c.act).onGrp c fun x => x.onLanes c.act fun _ k => { k with wait := w })
  else .stall

/-- CBAR (R105). -/
def execCbar (f : FI) (s : State) : Host.Outcome State Fault Refusal :=
  s.issue [] fun s c =>
    let id := bits f.imm.toNat 3 0
    let phase := (((s.core c.core).cbar.find? (16 * c.slot + id)).getD Barrier.reset).phase
    s.waitBarrier c 0 (.cbar id (bits f.imm.toNat 12 8) phase)

/-- The KBAR ids an operator may use (R92); 0 without one (R105). -/
def State.kbarn (s : State) (core : Nat) (x : Group) : Nat := ((s.opOf core x).map fun o => o.kbarn).getD 0

/-- The number of a cluster barrier in its cluster's reduction unit: ids are allotted to operators (R92). -/
def kbarKey (opid id : Nat) : Nat := 64 * opid + id

/-- KBAR (R105): an id not allotted is an illegal operand. -/
def execKbar (f : FI) (s : State) : Host.Outcome State Fault Refusal :=
  s.issue [] fun s c =>
    let x := s.grp c
    let id := bits f.imm.toNat 5 0
    if s.kbarn c.core x ≤ id then .done (s.trapSet c 6)
    else
      let key := kbarKey x.opid id
      let phase := match clusterOf c.core with
        | some cl => (((s.cluster cl).kbar.find? key).getD Barrier.reset).phase
        | none => 0
      s.waitBarrier c 1 (.kbar key (bits f.imm.toNat 24 16) phase)

end Sys2Proof.Machine
end

