-- ==== Sys2Proof/Machine/Special.lean ====
section
/-!
DEFINITION. RDSR, WRSR, WGROW and WSHRINK: special registers (R112, R128, R129) and the size of the window (R130).
-/
namespace Sys2Proof.Machine

/-- STEP (R191): of the operation that an uncorrectable word has ended, or of the oldest one interrupted and not resumed. -/
def Core.stepReg (k : Core) (x : Group) : Nat :=
  match x.step.head?.or (k.queue.find? fun o => o.cut && o.owner == x.uid) with
  | some op => 2 ^ 31 + op.stages * 2 ^ 8 + op.slices
  | none => 0

/-- CLUSTER as RDSR reads it: 10 on a pager-corner core (R112). -/
def clusterReg (core : Nat) : Nat := if core < 640 then core / 16 % 10 else 10

/-- STAGE (R16, R112): where the group's OPID names no operator, the stage most recently set on its core. -/
def State.stageReg (s : State) (core : Nat) (x : Group) : Nat :=
  match s.opOf core x with
  | some o => o.stage
  | none => (s.core core).stage

/-- A special register as a lane reads it (R112). -/
def State.special (s : State) (c : Ctx) (n l : Nat) : Nat :=
  let x := s.grp c
  match n with
  | 0 => l
  | 1 => x.gid
  | 2 => c.core
  | 3 => clusterReg c.core
  | 4 => dieOf c.core
  | 5 => s.pkg
  | 6 => s.stageReg c.core x
  | 7 => x.slot
  | 8 => x.window.headD 0
  | 9 => x.winsize
  | 10 => s.clk % 2 ^ 64
  | 11 => (x.lane l).c
  | 12 => (x.lane l).h
  | 13 => x.rows
  | 14 => x.tileh
  | 15 => x.opid
  | 16 => x.tenant
  | 17 => (s.core c.core).stepReg x
  | 18 => x.fpctl
  | _ => x.fpstat

/-- Whether a lane's instruction has still to merge its flags: one that issues again, or a merge (R378, R389, R397). -/
def Lane.flagsOwed (k : Lane) : Bool :=
  k.again.elim false (fun a => a.flags) || match k.wait with | .cred _ _ _ _ _ _ _ _ => true | _ => false

/-- Whether instructions that a group issued earlier have still to merge their flags (R128, R129, R135). -/
def State.flagsOwed (s : State) (c : Ctx) : Bool :=
  ((s.core c.core).matOps.any fun o => o.owner == (s.grp c).uid) || (s.grp c).live.any fun l => ((s.grp c).lane l).flagsOwed

/-- RDSR (R128). -/
def execRdsr (f : FI) (s : State) : Host.Outcome State Fault Refusal :=
  let n := f.imm.toNat
  let wide := n == 10 || n == 11 || n == 12
  s.issue [dstW wide f.d] fun s c =>
    if n = 19 ∧ s.flagsOwed c then .stall
    else
      let s' := (s.advance c).onGrp c fun x => x.wr c f.d wide fun l => s.special c n l
      .done s'

/-- WRSR (R129, R134, R135). -/
def execWrsr (f : FI) (s : State) : Host.Outcome State Fault Refusal :=
  s.issue [src32 f.a] fun s c =>
    if c.act.isEmpty then .done (s.advance c)
    else if s.flagsOwed c then .stall
    else .done ((s.advance c).onGrp c fun x =>
      let v := x.rd32 f.a c.low
      if f.imm = 18 then { x with fpctl := v % 8 } else { x with fpstat := v % 32 })

/-- WGROW (R130). -/
def execWgrow (f : FI) (s : State) : Host.Outcome State Fault Refusal :=
  s.issue [] fun s c =>
    let s := s.advance c
    let g := f.imm.toNat / 32
    let free := (s.core c.core).freeGranules
    .done (if c.act.isEmpty then s else s.onGrp c fun x =>
      let ok := decide (x.winsize + f.imm.toNat ≤ 640) && decide (g ≤ free.length)
      let x := if ok then { x with window := x.window ++ free.take g } else x
      x.wrPred c f.pd fun _ => ok)

/-- The register that a waiting lane's instruction writes when the wait ends (R104, R331). -/
def Lane.waitDest (k : Lane) : Operand :=
  match k.wait with
  | .await _ _ d => d
  | .fallback => k.tx.dest
  | _ => .none

/-- Whether a field names a V register at or above a bound. -/
def reaches (lo : Nat) (o : Operand) (regs : Nat) : Bool := match o with | .v n => decide (lo < n.val + regs) | _ => false

/-- Whether a write issued earlier by a group is outstanding to a register at or above a bound, or an operation still
reads one (R130). -/
def State.busyAbove (s : State) (c : Ctx) (lo : Nat) : Bool :=
  (s.owed c.core c.gid ++ (s.grp c).owedAgain c.set).any (fun w => reaches lo w.1 w.2.1) ||
  (s.grp c).live.any (fun l => reaches lo ((s.grp c).lane l).waitDest 1) ||
  (s.core c.core).matOps.any fun op =>
    op.owner == (s.grp c).uid && match op.daReg with | some r => (op.regsLeft r).any fun q => decide (lo < q.1 + q.2) | none => false

/-- Registers at or above a bound leave the window; a granule is zeroed before it joins one again (R107). -/
def Group.shrinkTo (x : Group) (n : Nat) : Group :=
  { x with window := x.window.take (n / 32), v := x.v.filter (fun e => decide (e.1 < 32 * n)),
           badV := x.badV.filter fun e => decide (e < 32 * n) }

/-- WSHRINK (R130). -/
def execWshrink (f : FI) (s : State) : Host.Outcome State Fault Refusal :=
  s.issue [] fun s c =>
    let s := s.advance c
    let n := f.imm.toNat
    let w := (s.grp c).winsize
    if c.act.isEmpty then .done s
    else if w < n + 32 then .done (s.onGrp c fun x => x.wrPred c f.pd fun _ => false)
    else if s.busyAbove c (w - n) then .stall
    else .done (s.onGrp c fun x => (x.shrinkTo (w - n)).wrPred c f.pd fun _ => true)

end Sys2Proof.Machine
end

