-- ==== Sys2Proof/Machine/SpadInstr.lean ====
section
/-!
DEFINITION. The scratchpad and accumulator instructions of spec/07 (R170 to R175).
-/
namespace Sys2Proof.Machine

/-! ### Data registers and addresses (R57, R170, R171) -/

/-- Bytes of an access size code. -/
def sizeOf (sz : BitVec 3) : Nat := 2 ^ sz.toNat

/-- A field that no operand satisfies. -/
def badUse : Use := ⟨.resv 0, 0, false, false, false, false, false, false, false⟩

/-- A datum of n bytes read from registers (R170). -/
def srcData (o : Operand) (n : Nat) : Use :=
  if n ≤ 4 then src32 o else if n = 8 then src64 o else srcRun o (n / 4) true
/-- A datum of n bytes written to registers (R170). -/
def dstData (o : Operand) (n : Nat) : Use :=
  if n ≤ 4 then dst32 o else if n = 8 then dst64 o else dstRun o (n / 4) true
/-- A descriptor: an even S register (R162). -/
def descUse (o : Operand) : Use :=
  match o with
  | .s n => if n.val % 2 = 0 then src64 o else badUse
  | _ => badUse
/-- The two words of the descriptor an even S register names. -/
def Group.descWords (x : Group) (o : Operand) : Nat × Nat :=
  match o with
  | .s n => ((sget x.s n.val).toNat, (sget x.s (n.val + 1)).toNat)
  | _ => (0, 0)

/-- A datum of n bytes of a lane (R170). -/
def Group.rdData (x : Group) (o : Operand) (l n : Nat) : Nat :=
  if n ≤ 4 then x.rd32 o l % 256 ^ n else if n = 8 then x.rd64 o l else x.rdRegs o l (n / 4)

/-- Data of n bytes written for the active lanes: an S register takes the lowest active lane's (R62, R170). -/
def Group.wrData (x : Group) (c : Ctx) (o : Operand) (n : Nat) (f : Nat → Nat) : Group :=
  if n ≤ 4 then x.wr c o false f
  else if n = 8 then x.wr c o true f
  else c.act.foldl (fun x l => x.putRegs o l (f l) (n / 4)) x

/-- The address of a lane of an FM instruction (R57). -/
def fmAddr (f : FM) (x : Group) (l : Nat) : Nat :=
  wrap 53 ((x.rd64 f.a l : Int) + x.rd32 f.b l + f.ofs.toInt)

/-- A value of n bytes as a 32-bit or wider result: sign-extended where SX says so. -/
def extend (sx : Bool) (n v : Nat) : Nat := if sx && decide (n < 4) then wrap 32 (sextInt v (8 * n)) else v

/-- The core and context slot that the group's operator binds to a role, in the issuing core's cluster (R166). -/
def State.roleOf (s : State) (core : Nat) (x : Group) (r : Nat) : Option (Nat × Nat) :=
  match s.opOf core x with
  | none => none
  | some o =>
    match (o.roles[r]?).join with
    | some c => if (clusterOf c).isSome && clusterOf c == clusterOf core then some (c, o.ctxslot) else none
    | none => none

/-! ### LDS, STS, LDSR, STSR (R171) -/

/-- A lane access: each lane's check first; a failing lane traps and no access is performed. The accesses of an instruction are performed
whole and at its issue, in program order, where R169 lets other fibres see those to different words in any order (log 42). -/
def State.laneAccess (s : State) (uses : List Use) (fail : State → Ctx → Nat → Option (Nat × Nat))
    (body : State → Ctx → State) : Host.Outcome State Fault Refusal :=
  s.issue uses fun s c =>
    let fails := c.act.filterMap fun l => (fail s c l).map fun e => (l, e.1, e.2)
    if fails.isEmpty then .done (body (s.advance c) c) else .done (s.spadTraps c fails)

/-- Where a lane of LDS or STS goes. -/
def State.ldsTarget (s : State) (f : FM) (c : Ctx) (l : Nat) : Except Nat (Nat × Nat) :=
  s.spadTarget c.core c.slot (fmAddr f (s.grp c) l) (sizeOf f.sz) (s.roleOf c.core (s.grp c))

/-- The trap of a lane of LDS or STS. -/
def State.ldsFail (s : State) (f : FM) (c : Ctx) (l : Nat) : Option (Nat × Nat) :=
  match s.ldsTarget f c l with
  | .error e => some (e, fmAddr f (s.grp c) l)
  | .ok _ => none

/-- LDS (R171). -/
def execLds (f : FM) (s : State) : Host.Outcome State Fault Refusal :=
  let n := sizeOf f.sz
  s.laneAccess [dstData f.d n, src64 f.a, src32 f.b] (fun s c l => s.ldsFail f c l) fun s c =>
    s.onGrp c fun x => x.wrData c f.d n fun l =>
      match s.ldsTarget f c l with
      | .ok (k, p) => extend (f.fn == 1) n ((s.core k).spadRead p n)
      | .error _ => 0

/-- STS (R171). -/
def execSts (f : FM) (s : State) : Host.Outcome State Fault Refusal :=
  let n := sizeOf f.sz
  s.laneAccess [srcData f.d n, src64 f.a, src32 f.b] (fun s c l => s.ldsFail f c l) fun s c =>
    let x := s.grp c
    c.act.foldl (fun t l =>
      match s.ldsTarget f c l with
      | .ok (k, p) => t.onCore k fun k => k.spadWrite p n (x.rdData f.d l n)
      | .error _ => t) s

/-- A lane's tile, row and column through a descriptor (R171). -/
def rowOf (f : FM) (x : Group) (l : Nat) : Nat × Nat × Nat :=
  let b := x.rd32 f.b l
  (bits b 31 16, bits b 15 0, f.ofs.toInt.toNat)

/-- The trap of a lane of LDSR or STSR (R162, R163, R171). -/
def State.ldsrFail (s : State) (f : FM) (c : Ctx) (l : Nat) : Option (Nat × Nat) :=
  let x := s.grp c
  let w := x.descWords f.a
  let (t, i, _) := rowOf f x l
  let raw : Int := ((bits w.1 18 0 + t * bits w.2 18 0 + i * bits w.1 50 32 : Nat) : Int) + f.ofs.toInt
  let la := wrap 53 raw
  match descOf w.1 w.2 with
  | none => some (causeDesc, la)
  | some d =>
    if f.ofs.toInt < 0 then some (causeRange, la)
    else ((s.core c.core).descFail c.slot d t i f.ofs.toInt.toNat (sizeOf f.sz)).map fun e => (e, la)

/-- LDSR (R171). -/
def execLdsr (f : FM) (s : State) : Host.Outcome State Fault Refusal :=
  let n := sizeOf f.sz
  s.laneAccess [dstData f.d n, descUse f.a, src32 f.b] (fun s c l => s.ldsrFail f c l) fun s c =>
    let x := s.grp c
    match descOf (x.descWords f.a).1 (x.descWords f.a).2 with
    | none => s
    | some d => s.onGrp c fun x => x.wrData c f.d n fun l =>
        let (t, i, col) := rowOf f x l
        extend (f.fn == 1) n ((s.core c.core).descRead c.slot d t i col n)

/-- STSR (R171). -/
def execStsr (f : FM) (s : State) : Host.Outcome State Fault Refusal :=
  let n := sizeOf f.sz
  s.laneAccess [srcData f.d n, descUse f.a, src32 f.b] (fun s c l => s.ldsrFail f c l) fun s c =>
    let x := s.grp c
    match descOf (x.descWords f.a).1 (x.descWords f.a).2 with
    | none => s
    | some d => s.onCore c.core fun k => c.act.foldl (fun k l =>
        let (t, i, col) := rowOf f x l
        k.descWrite c.slot d t i col (x.rdData f.d l n) n) k

/-! ### ATOMS (R172) -/

/-- The read-modify-write operations of scratchpad and of global memory (R172, R323). -/
inductive Rmw
  | add | sub | min | max | minu | maxu | and | or | xor | exch | cas | incb | decb | fadd
deriving DecidableEq, Repr

/-- The operation of ATOMS by FN. -/
def spadRmw (fn : BitVec 8) : Rmw :=
  match fn.toNat with
  | 0 => .add | 1 => .sub | 2 => .min | 3 => .max | 4 => .minu | 5 => .maxu | 6 => .and | 7 => .or | 8 => .xor
  | 9 => .exch | 10 => .cas | 11 => .incb | 12 => .decb | _ => .fadd

/-- The new value of a word of w bits: old value, operand, comparison value. -/
def Rmw.apply (op : Rmw) (w old c d : Nat) : Nat :=
  match op with
  | .add => (old + c) % 2 ^ w
  | .sub => wrap w ((old : Int) - c)
  | .min => if sextInt old w ≤ sextInt c w then old else c
  | .max => if sextInt old w ≤ sextInt c w then c else old
  | .minu => Nat.min old c
  | .maxu => Nat.max old c
  | .and => old &&& c
  | .or => old ||| c
  | .xor => old ^^^ c
  | .exch => c
  | .cas => if old = d then c else old
  | .incb => if old < c then old + 1 else old
  | .decb => if old > c then old - 1 else old
  | .fadd => old

/-- The trap of a lane of ATOMS: local addresses only. -/
def State.atomsFail (s : State) (f : FM) (c : Ctx) (l : Nat) : Option (Nat × Nat) :=
  let a := fmAddr f (s.grp c) l
  ((s.core c.core).spadFail c.slot a (sizeOf f.sz)).map fun e => (e, a)

/-- The read-modify-writes of the lanes in ascending order: the core after them, the old values, the flags. -/
def Core.atoms (k : Core) (f : FM) (x : Group) (slot : Nat) : List Nat → Core × List (Nat × Nat) × Flags
  | [] => (k, [], .none)
  | l :: ls =>
    let n := sizeOf f.sz
    let p := k.partBase slot + fmAddr f x l
    let old := k.spadRead p n
    let op := spadRmw f.fn
    let cv := x.rdData f.c l n
    let (v, fl) := if op = .fadd then
        deliver x.ftz fp32 .rne (sumNum .rne [flushIn x.ftz (fp32.value old), x.rdFl fp32 f.c l])
      else (op.apply (8 * n) old cv (x.rdData f.d l n), .none)
    let (k, ds, fs) := (k.spadWrite p n v).atoms f x slot ls
    (k, (l, old) :: ds, fl.or fs)

/-- ATOMS (R172). -/
def execAtoms (f : FM) (s : State) : Host.Outcome State Fault Refusal :=
  let n := sizeOf f.sz
  s.laneAccess [dstData f.d n, src64 f.a, src32 f.b, srcData f.c n] (fun s c l => s.atomsFail f c l) fun s c =>
    let (k, ds, fl) := (s.core c.core).atoms f (s.grp c) c.slot c.act
    (s.setCore c.core k).onGrp c fun x => (x.wrData c f.d n fun l => valueFor ds l).mergeFlags fl

/-! ### Accumulator tiles (R165, R173, R174) -/

/-- The row and first column of a lane of LDA or STA. -/
def accAt (f : F3) (x : Group) (l : Nat) : Nat × Nat := (x.rd32 f.a l, x.rd32 f.b l)
/-- Elements per lane of LDA and STA. -/
def accWidth (f : F3) : Nat := 2 ^ (f.md.toNat % 4)

/-- The trap of a lane of LDA or STA: RANGE, ALIGN, ACC; its address is the element's in its tile (R164). -/
def State.accFail (s : State) (f : F3) (c : Ctx) (l : Nat) : Option (Nat × Nat) :=
  let (i, j) := accAt f (s.grp c) l
  let a := (i * 128 + j) * 4
  if 64 ≤ i ∨ 128 < j + accWidth f then some (causeRange, a)
  else if j % accWidth f ≠ 0 then some (causeAlign, a)
  else if !(s.core c.core).ownsAcc c.slot f.fn.toNat then some (causeAcc, a)
  else none

/-- An accumulator instruction: traps first, then the stall on a busy tile. -/
def State.accAccess (s : State) (f : F3) (uses : List Use) (body : State → Ctx → State) : Host.Outcome State Fault Refusal :=
  s.issue uses fun s c =>
    let fails := c.act.filterMap fun l => (s.accFail f c l).map fun e => (l, e.1, e.2)
    if !fails.isEmpty then .done (s.spadTraps c fails)
    else if !c.act.isEmpty && (s.core c.core).accBusy f.fn.toNat then .stall
    else .done (body (s.advance c) c)

/-- LDA (R173). -/
def execLda (f : F3) (s : State) : Host.Outcome State Fault Refusal :=
  s.accAccess f [dstRun f.d (accWidth f) false, src32 f.a, src32 f.b] fun s c =>
    let k := s.core c.core
    s.onGrp c fun x => c.act.foldl (fun y l =>
      let (i, j) := accAt f x l
      (List.range (accWidth f)).foldl (fun y e =>
        match f.d with
        | .v r => if r.val + e < y.winsize then y.setV (r.val + e) l (k.accGet f.fn.toNat i (j + e)) else y
        | _ => y) y) x

/-- STA (R173). -/
def execSta (f : F3) (s : State) : Host.Outcome State Fault Refusal :=
  s.accAccess f [src32 f.a, src32 f.b, srcRun f.c (accWidth f) false] fun s c =>
    let x := s.grp c
    s.onCore c.core fun k => c.act.foldl (fun k l =>
      let (i, j) := accAt f x l
      (List.range (accWidth f)).foldl (fun k e =>
        k.accPut f.fn.toNat i (j + e) (x.rdRegs f.c l (e + 1) / 2 ^ (32 * e))) k) k

/-- ZACC (R174): with no active lane it has no effect. -/
def State.zacc (s : State) (f : F3) (uses : List Use) (rows : Ctx → Group → Nat × Nat) : Host.Outcome State Fault Refusal :=
  s.issue uses fun s c =>
    let (i, n) := rows c (s.grp c)
    let k := s.core c.core
    if c.act.isEmpty then .done (s.advance c)
    else if 64 < i + n then .done (s.spadTrapAll c causeRange (i * 512))
    else if !k.ownsAcc c.slot f.fn.toNat then .done (s.spadTrapAll c causeAcc (i * 512))
    else if k.accBusy f.fn.toNat then .stall
    else .done ((s.advance c).onCore c.core fun k => k.accZeroRows f.fn.toNat i n)

/-- ZACC (R174). -/
def execZacc (f : F3) (s : State) : Host.Outcome State Fault Refusal := s.zacc f [] fun _ _ => (0, 64)
/-- ZACC.ROWS (R174). -/
def execZaccRows (f : F3) (s : State) : Host.Outcome State Fault Refusal :=
  s.zacc f [src32 f.a, src32 f.b] fun c x => (x.rd32 f.a c.low, x.rd32 f.b c.low)

/-! ### SFILL (R175) -/

/-- SFILL (R175). -/
def execSfill (f : FM) (s : State) : Host.Outcome State Fault Refusal :=
  let n := sizeOf f.sz
  s.issue [srcData f.d n, src64 f.a, src32 f.b, tagUse f.c] fun s c =>
    let x := s.grp c
    let k := s.core c.core
    let a := wrap 53 ((x.rd64 f.a c.low : Int) + f.ofs.toInt)
    let m := x.rd32 f.b c.low
    if c.act.isEmpty ∨ m = 0 then .done (s.advance c)
    else if a % n ≠ 0 ∨ m % n ≠ 0 ∨ !spadAligned a m then .done (s.spadTrapAll c causeAlign a)
    else if k.partSize c.slot < a + m then .done (s.spadTrapAll c causeRange a)
    else if 16 ≤ (k.fills.filter fun q => q.slot == c.slot).length then .stall
    else
      let q : Fill := ⟨s.nextId, c.gid, c.slot, k.partBase c.slot + a, m, x.rdData f.d c.low n, n, tagOf f.c⟩
      let s := { s with nextId := s.nextId + 1 }.onCore c.core fun k => { k with fills := k.fills ++ [q] }
      match tagOf f.c with
      | some t => .done ((s.advance c).onGrp c fun x => x.onTag t fun g => g.add)
      | none => .done (s.onGrp c fun x => x.onLanes c.set fun _ k => { k with wait := .reply q.id })

/-- The pattern of a fill written over n · m bytes. -/
def Core.fill (k : Core) (p n v : Nat) : Nat → Core
  | 0 => k
  | m + 1 => (k.spadWrite p n v).fill (p + n) n v m

/-- Lanes stalled on a request of their core move on (R275, R278): the request is over. -/
def Core.wakeReply (k : Core) (gid id : Nat) : Core :=
  k.onGroup gid fun x =>
    x.onLanes (x.live.filter fun l => (x.lane l).wait == .reply id) fun _ k => { k with wait := .none, pc := nextPc k.pc }

/-- An incomplete SFILL is performed (R175): its bytes are written, its tag drops or its lanes go on. -/
def Core.completeFill (k : Core) (q : Fill) : Core :=
  let k := { k with fills := k.fills.filter fun r => r.id != q.id }.fill q.addr q.size q.pattern (q.bytes / q.size)
  match q.tag with
  | some t => k.onGroup q.gid fun x => x.onTag t fun g => g.dec
  | none => k.wakeReply q.gid q.id

end Sys2Proof.Machine
end

