-- ==== Sys2Proof/Machine/Mtx.lean ====
section
/-!
DEFINITION. The matrix instructions of spec/08 (R182, R197 to R204) and the steps of the array, its banks and its sequencer.
-/
namespace Sys2Proof.Machine

/-! ### MSIGN (R198) -/

/-- MSIGN (R198): a release by each signing lane (R183). -/
def execMsign (f : FK) (s : State) : Host.Outcome State Fault Refusal :=
  s.issueWith [f.mask] [] (fun _ _ => true) fun s c =>
    let k := f.mask.val
    let ls := c.act.filter fun l => ((s.grp c).mask k).enrol.testBit l
    if ls.isEmpty then .done (s.advance c)
    else if !s.mayRelease c.core c.gid 0 ls then .stall
    else match ((s.advance c).onGrp c fun x => x.sign k ls).submitAll c.core c.gid with
      | some s => .done s
      | none => .stall

/-! ### WLOAD (R178, R179, R199) -/

/-- A group boarded on a ride (R248). -/
def Group.boarded (x : Group) : Bool := x.ride.isSome

/-- A matrix trap of a cause for all active lanes (R204). -/
def State.matrixTrap (s : State) (c : Ctx) (cause : Nat) : State :=
  s.enterTraps c.core c.gid (fun _ => ⟨11, cause, c.pc, 0, 0, none⟩) c.act

/-- The first of some rows of a tile whose n bytes from column 0 fail: cause and address. -/
def Core.rowsFail (k : Core) (slot : Nat) (d : Desc) (t rows n : Nat) : Option (Nat × Nat) :=
  (List.range rows).findSome? fun i => (k.descFail slot d t i 0 n).map fun e => (e, d.la t i 0)

/-- A free bank that a WLOAD may take (R178). -/
def Core.bankToTake (k : Core) : Option Nat :=
  [0, 1].find? fun b =>
    (k.bank b).st == 0 &&
    (!(k.groups.any fun g => g.2.boarded) || (k.bank (1 - b)).st == 0 || (k.bank (1 - b)).ride.isSome)

/-- The bytes of a block in scratchpad, in the layout of R177. -/
def Core.blockBytes (k : Core) (slot : Nat) (d : Desc) (t fmt : Nat) : Map Byte :=
  let n := rowBytes fmt
  (List.range 128).foldl (fun m j => putBytes m (j * n) n (k.descRead slot d t j 0 n)) []

/-- WLOAD (R199): the bytes are read at issue. -/
def execWload (f : F3) (s : State) : Host.Outcome State Fault Refusal :=
  s.issue [descUse f.a, src32 f.b, tagUse f.c] fun s c =>
    let x := s.grp c
    let k := s.core c.core
    let fmt := f.md.toNat
    let w := x.descWords f.a
    let t := x.rd32 f.b c.low
    if c.act.isEmpty then .done (s.advance c)
    else if x.boarded then .done (s.matrixTrap c 6)
    else match descOf w.1 w.2 with
      | none => .done (s.spadTrapAll c causeDesc (bits w.1 18 0))
      | some d =>
        match k.rowsFail c.slot d t 128 (rowBytes fmt) with
        | some (e, a) => .done (s.spadTrapAll c e a)
        | none =>
          let k := k.giveUpBank x.uid
          let busy := [0, 1].any fun b => (k.bank b).owner == some x.uid
          match (if busy then none else k.bankToTake) with
          | none => .stallAfter (s.setCore c.core k)
          | some b =>
            let bank : Bank := ⟨1, fmt, k.blockBytes c.slot d t fmt, some x.uid, none, (tagOf f.c).map fun t => (c.gid, t), false,
                                if (List.range 128).any fun j => k.descBad c.slot d t j 0 (rowBytes fmt) then [0] else []⟩
            let s := (s.advance c).onCore c.core fun a => { a with banks := (k.setBank b bank).banks }
            .done (match tagOf f.c with
              | some t => s.onGrp c fun x => x.onTag t fun g => g.add
              | none => s)

/-- WLOAD.REL (R199). -/
def execWloadRel (s : State) : Host.Outcome State Fault Refusal :=
  s.issue [] fun s c =>
    let s := s.advance c
    .done (if c.act.isEmpty then s else s.onCore c.core fun k => k.giveUpBank (s.grp c).uid)

/-- A filled bank becomes READY, and its tag drops (R199, R178). -/
def Core.bankReady (k : Core) (b : Nat) : Core :=
  let x := k.bank b
  if x.st ≠ 1 then k
  else
    let k := k.setBank b { x with st := 2, tag := none }
    let k := match x.tag with
      | some (g, t) => k.onGroup g fun y => if x.owner = some y.uid then y.onTag t fun q => q.dec else y
      | none => k
    k.releaseBanks

/-- A ride block in the landing buffer moves into a free bank (R178). -/
def Core.landingMove (k : Core) : Core :=
  match k.landing, [0, 1].find? (fun b => (k.bank b).st == 0) with
  | r :: rest, some b =>
    { k.setBank b ⟨1, r.fmt, r.bytes, none, some { r with bytes := [] }, none, false, r.bad⟩ with landing := rest }
  | _, _ => k

/-! ### TMMA and ADPT (R184 to R189, R200, R201) -/

/-- The height of an operation (R184); 0 when SHAPE is 0 and the group has no tile. -/
def heightOf (f : FT) (x : Group) : Nat := if f.shape = 0 then x.tileh else 8 * 2 ^ (f.shape.toNat - 1)

/-- K and N of ADPT (R201). -/
def adptDims (f : FT) : Nat × Nat := (8 * (f.fn.toNat / 16 + 1), 8 * (f.fn.toNat % 16 + 1))

/-- The stages of a chain of the group's operator (R194). -/
def State.chainOf (s : State) (c : Ctx) (n : Nat) : List Nat :=
  match s.opOf c.core (s.grp c) with
  | some o => (o.chains[n]?).getD []
  | none => []

/-- Why an operation is refused: the trap kind, cause and address. -/
abbrev OpFail := Nat × Nat × Nat

/-- A scratchpad failure. -/
def spadWhy (e : Option (Nat × Nat)) : Option OpFail := e.map fun r => (10, r.1, r.2)

/-- The check of one stage (R187, R194). -/
def Core.stageFail (k : Core) (slot h n : Nat) (db : Option (Nat × Nat)) (w : Nat) : Option OpFail :=
  let tile (t bytes : Nat) : Option OpFail :=
    match db with
    | none => some (11, 2, 0)
    | some d => match descOf d.1 d.2 with
      | none => some (10, causeDesc, bits d.1 18 0)
      | some d => spadWhy (k.rowsFail slot d t h bytes)
  match stageCode w with
  | 1 => spadWhy ((k.spadFail slot (stageOpd w) 512).map fun e => (e, stageOpd w))
  | 2 => spadWhy ((k.spadFail slot (stageOpd w) 512).map fun e => (e, stageOpd w))
  | 3 => tile (stageOpd w) (n * wideSize (stageArg w))
  | 4 => if k.ownsAcc slot (stageArg w % 4) then none else some (10, causeAcc, 0)
  | 6 => if k.ownsAcc slot (stageArg w % 4) then none else some (10, causeAcc, 0)
  | 7 => tile (stageOpd w) (n * wideSize (stageArg w))
  | 8 => if n % 32 ≠ 0 then some (11, 3, 0) else tile (stageOpd w) (elemBytes (stageArg w) 128 + n / 32)
  | _ => none

/-- The checks of TMMA and ADPT in the order of R200. -/
def State.opFail (s : State) (f : FT) (c : Ctx) (adpt : Option (Nat × Nat)) (chain : List Nat) : Option OpFail :=
  let x := s.grp c
  let k := s.core c.core
  let h := heightOf f x
  let n := (adpt.getD (128, 128)).2
  let db := if f.db = .none then none else some (x.descWords f.db)
  if h = 0 then some (11, 1, 0)
  else if adpt.isSome && decide (2 ≤ f.fmta.toNat) then some (11, 4, 0)
  else
    let da : Option OpFail := match f.da with
      | .s _ => let w := x.descWords f.da
        match descOf w.1 w.2 with
        | none => some (10, causeDesc, bits w.1 18 0)
        | some d => spadWhy (k.rowsFail c.slot d 0 h (rowBytes f.fmta.toNat))
      | _ => none
    let block : Option OpFail := match adpt, db with
      | some _, none => some (11, 2, 0)
      | some (kk, n), some d => match descOf d.1 d.2 with
        | none => some (10, causeDesc, bits d.1 18 0)
        | some d => spadWhy (k.rowsFail c.slot d 0 n (2 * kk))
      | none, _ => none
    let stages := chain.findSome? (k.stageFail c.slot h n db)
    let acc : Option OpFail := if k.ownsAcc c.slot f.acc.val then none else some (10, causeAcc, 0)
    let weight : Option OpFail :=
      if adpt.isNone && !x.boarded && (k.privateBank x.uid).isNone then some (11, 5, 0) else none
    let sign : Option OpFail := if (x.mask f.cv.val).pending.isSome then some (11, 7, 0) else none
    da.or (block.or (stages.or (acc.or (weight.or sign))))

/-- The operation that a TMMA or ADPT issues (R200). -/
def State.matOp (s : State) (f : FT) (c : Ctx) (adpt : Option (Nat × Nat)) (chain : List Nat) : MatOp :=
  let x := s.grp c
  { id := s.nextId, gid := c.gid, owner := x.uid, slot := c.slot, adpt := adpt, height := heightOf f x, acc := f.acc.val,
    fmta := f.fmta.toNat, daReg := match f.da with | .v r => some r.val | _ => none,
    daDesc := x.descWords f.da, db := if f.db = .none then none else some (x.descWords f.db),
    chain := chain, tag := tagOf f.c, mask := f.cv.val, stamp := none, ftz := x.ftz,
    bank := if adpt.isSome || x.boarded then none else (s.core c.core).privateBank x.uid,
    ride := if adpt.isSome then none else x.ride.map fun r => ⟨r.op, r.expert, r.bind, r.opening, r.place⟩,
    slices := 0, stages := 0, work := [], flags := 0, running := false, streamed := false, buffer := none,
    cut := false }

/-- A place of the pass is taken; the last one ends the boarding (R249). -/
def Ride.step (r : Ride) : Option Ride := if r.place + 1 < r.places then some { r with place := r.place + 1 } else none

/-- The effect of an issued operation on its group: place, tag, signatures, pending operation (R189, R196, R200). -/
def Group.issueOp (x : Group) (op : MatOp) (ls : List Nat) : Group :=
  let x := { x with ride := if op.ride.isSome then x.ride.bind fun r => r.step else x.ride }
  let x := match op.tag with
    | some t => x.onTag t fun g => g.add
    | none => x
  let x := x.sign op.mask ls
  x.setMask op.mask { x.mask op.mask with pending := some op }

/-- The DA field (R186): a run of V registers of the source's length, or an even S register. -/
def daUse (f : FT) (x : Group) : Use :=
  match f.da with
  | .v _ => srcRun f.da (max 1 (regSourceLen f.fmta.toNat (heightOf f x))) false
  | _ => descUse f.da

/-- TMMA and ADPT (R200, R201). -/
def State.tileOp (s : State) (f : FT) (adpt : Option (Nat × Nat)) : Host.Outcome State Fault Refusal :=
  let x := match s.cur with | some i => s.group i.core i.gid | none => Group.empty
  let db := if f.db = .none then [] else [descUse f.db]
  s.issueWith [f.cv] (daUse f x :: db ++ [tagUse f.c]) (fun _ _ => true) fun s c =>
    let chain := s.chainOf c f.epi.toNat
    let ls := c.act.filter fun l => ((s.grp c).mask f.cv.val).enrol.testBit l
    if c.act.isEmpty then .done (s.advance c)
    else match s.opFail f c adpt chain with
      | some (kind, cause, addr) =>
        .done (s.enterTraps c.core c.gid (fun _ => ⟨kind, cause, c.pc, addr, 0, none⟩) c.act)
      | none =>
        if !s.mayRelease c.core c.gid 0 ls then .stall
        else
          let op := s.matOp f c adpt chain
          let t := (s.advance c).onGrp c fun x => x.issueOp op ls
          let s := { t with nextId := s.nextId + 1 }
          match s.submitAll c.core c.gid with
          | some s => .done s
          | none => .stall

/-- TMMA (R200). -/
def execTmma (f : FT) (s : State) : Host.Outcome State Fault Refusal := s.tileOp f none
/-- ADPT (R201). -/
def execAdpt (f : FT) (s : State) : Host.Outcome State Fault Refusal := s.tileOp f (some (adptDims f))

/-! ### TSTAT, TSHAPE (R185, R202, R203) -/

/-- The state of a bank as TSTAT codes it. -/
def Bank.code (b : Bank) : Nat := if b.st = 2 ∧ b.ride.isSome then 3 else b.st

/-- TSTAT's word (R202). -/
def Core.tstat (k : Core) (uid : Nat) : Nat :=
  let busy := maskOf ((List.range 4).filter k.accBusy)
  let mine := maskOf ([0, 1].filter fun b => (k.bank b).owner == some uid)
  busy * 2 ^ 24 + k.queue.length % 16 * 2 ^ 20 + mine * 2 ^ 16 + (k.bank 1).fmt * 2 ^ 12 + (k.bank 1).code * 2 ^ 10 +
    (k.bank 0).fmt * 2 ^ 4 + (k.bank 0).code * 2 ^ 2

/-- TSTAT (R202). -/
def execTstat (f : F3) (s : State) : Host.Outcome State Fault Refusal :=
  s.issue [dst32 f.d] fun s c =>
    let v := (s.core c.core).tstat (s.grp c).uid
    .done ((s.advance c).onGrp c fun x => x.wr c f.d false fun _ => v)

/-- The shape function (R185). -/
def shapeOf (t : Nat × Nat × Nat) (n : Nat) : Nat :=
  if n = 0 then 0 else if n ≤ t.1 then 8 else if n ≤ t.2.1 then 16 else if n ≤ t.2.2 then 32 else 64

/-- TSHAPE (R203). -/
def execTshape (f : FI) (s : State) : Host.Outcome State Fault Refusal :=
  s.issue [dst32 f.d, src32 f.a] fun s c =>
    let x := s.grp c
    let t := match s.opOf c.core x with | some o => o.thresholds | none => (8, 16, 32)
    .done ((s.advance c).onGrp c fun y => y.wr c f.d false fun l =>
      shapeOf t (min (x.rd32 f.a l + f.imm.toNat) (2 ^ 32 - 1)))

/-! ### The array's own steps (R181, R188, R190, R192, R193) -/

/-- Whether an operation's group is frozen (R190). -/
def Core.opFrozen (k : Core) (op : MatOp) : Bool :=
  match k.opGroup op with
  | some x => x.frozenSlot.isSome || x.frozenRegion.isSome
  | none => false

/-- Whether CTXSV holds back the groups of a slot (R425). -/
def Core.saves (k : Core) (slot : Nat) : Bool :=
  match k.saving with
  | some v => v.slot == slot && match k.groups.find? v.gid with
    | some x => x.uid == v.uid && (x.lane v.lane).live && decide ((x.lane v.lane).pc = v.pc)
    | none => false
  | none => false

/-- The queued operations that cannot go on until something outside the array happens: frozen ones, and those not started behind one that
names a tile of theirs and cannot go on (R188, R190, R192). -/
def Core.stuckOps (k : Core) : List MatOp :=
  k.queue.foldl (fun h o => if k.opFrozen o || (!o.running && (k.heldSteps ++ h).any o.sharesTile) then h ++ [o] else h) []

/-- Whether an operation still has to stream from a bank that holds its block or is to hold it (R179, R249). -/
def Core.mayStream (k : Core) (o : MatOp) : Bool :=
  o.adpt.isNone && decide (8 * o.slices < o.height) && ((k.weightBank o).any (fun b => b.st == 2) || o.ride.any k.blockHere)

/-- The queued operations that a save lets run: those that free a bank by streaming (R179, R249), and before them those whose tiles they
wait for (R188). -/
def Core.neededOps (k : Core) : List MatOp :=
  let stuck := k.stuckOps
  k.queue.foldr (fun o n => if !(stuck.any fun q => q.id == o.id) && (k.mayStream o || n.any o.sharesTile) then o :: n else n) []

/-- Whether an operation may not start or go on: its group is frozen, or its slot is being saved and needs it no more (R190). -/
def Core.opStopped (k : Core) (op : MatOp) : Bool :=
  k.opFrozen op || (k.saves op.slot && !(k.neededOps.any fun q => q.id == op.id))

/-- The array starts the oldest operation that may start, one streaming at a time; ADPT reads its adapter block (R188, R192, R201). -/
def Core.arrayStart (k : Core) : Core :=
  if k.queue.any (fun o => o.running && !o.streamed) then k
  else match k.startable k.opStopped k.heldSteps k.queue with
    | none => k
    | some op =>
      if k.adapterUncorr op then k.opUncorr op
      else
        let buffer := op.adpt.elim none fun d => some (op.buffer.getD (k.adapterBlock op d.1 d.2))
        k.setOp { op with running := true, cut := false, buffer := buffer }

/-- An operation streams, for n slices at most: the boundary before one that meets an uncorrectable word ends it (R192); when all have
streamed, its bank and its place in the pass are no longer needed (R179). -/
def Core.stream (k : Core) (id n : Nat) : Core :=
  match k.queue.find? (fun o => o.id == id && o.running && !o.streamed) with
  | none => k
  | some op =>
    let (k, op, bad) := k.runSlices op n
    if bad then k.opUncorr op
    else if 8 * op.slices < op.height then k.setOp op
    else
      let k := k.setOp { op with streamed := true }
      match op.ride with
      | some q => k.dropUser op.owner fun r => r.serves q
      | none => k.releaseBanks

/-- A streamed operation runs its epilogue, n stages at most, and completes, or meets an uncorrectable word (R192 to R196). -/
def Core.finish (k : Core) (id n : Nat) : Core :=
  match k.queue.find? (fun o => o.id == id && o.streamed && !k.opStopped o) with
  | none => k
  | some op =>
    let (k, op, bad) := k.runStages op ((op.chain.drop op.stages).take n)
    if bad then k.opUncorr op
    else if op.stages < op.chain.length then k.setOp op
    else k.completeOp op

/-- The operations left at a step boundary by a killed group are discarded (R192): their tags drop, what they have computed stays. -/
def Core.discardStep (k : Core) (gid : Nat) : Core :=
  k.onGroup gid fun x =>
    x.step.foldl (fun x op => match op.tag with | some t => x.onTag t Tag.dec | none => x) { x with step := [] }

end Sys2Proof.Machine
end

