-- ==== Sys2Proof/Machine/Mem.lean ====
section
/-!
DEFINITION. Accesses to global memory on their way from issue to reply (spec/11, spec/12): slices and settlement (R265,
R266, R308), the on-chip map (R167, R168), translation and faults (R273 to R279), order (R276, R286, R300), the race
detector (R305 to R311), performance and reply (R295, R298). Shared operations; the instructions are in MemInstr.
-/
namespace Sys2Proof.Machine

/-! ### Slices, base-die caches, settlement (R265, R266, R308) -/

/-- Race metadata of a sector of a die; absent, it starts from the settle floor (R305). -/
def State.metaOf (s : State) (x : Nat) : SectorMeta :=
  (s.rmeta.find? x).getD (let f := (s.die (s.homeDie (32 * x))).floor; ⟨f, 0, 0, f, 0, 0⟩)

/-- A sector is settled: its metadata is dropped and the die's floor rises (R266, R308). -/
def State.settle (s : State) (x : Nat) : State :=
  match s.rmeta.find? x with
  | none => s
  | some m => { s.onDie (s.homeDie (32 * x)) fun d => { d with floor := stampMax d.floor m.clock } with
                rmeta := s.rmeta.erase x }

/-- The sectors of a line that stand in its slice. -/
def State.heldSectors (s : State) (line : Nat) : Nat :=
  ((s.die (dieOfPa (128 * line))).slices.find? fun l => l.line == line).elim 0 fun l => l.valid

/-- The sectors of a line that its slice does not hold are settled: they have left the base-die cache too. -/
def State.settleLine (s : State) (line : Nat) : State :=
  ([0, 1, 2, 3].filter fun i => !(s.heldSectors line).testBit i).foldl (fun s i => s.settle (4 * line + i)) s

/-- A line enters its channel's base-die cache; a full one loses a line, which settles (R266) and whose write to HBM holds a slot
(R267). -/
def State.toBase (s : State) (die line : Nat) : State :=
  let ch := channelOf (128 * line)
  let d := s.die die
  let mine := d.baseCache.filter fun e => e.1 == ch
  if mine.any fun e => e.2 == line then s
  else if mine.length < 1024 then s.onDie die fun d => { d with baseCache := d.baseCache ++ [(ch, line)] }
  else
    let out := ((mine[Config.baseVictim s.free % 1024]?).getD (ch, line)).2
    (((s.onDie die fun d =>
      { d with baseCache := (d.baseCache.filter fun e => e.2 != out) ++ [(ch, line)] }).settleLine out).passSlot (128 * out)).draw

/-- The insertion value of a reuse-distance hint (R265). -/
def hintV (rd : Nat) : Nat := match rd % 4 with | 0 => 2 | 1 => 0 | _ => 3

/-- Lines of a set aged until one has v = 3 and may be chosen: the lowest way of those (R265). -/
def victimWay : Nat → List SliceLine → List SliceLine × Option SliceLine
  | 0, ls => (ls, none)
  | n + 1, ls =>
    let c := ls.filter fun l => l.v == 3 && !l.pin
    match c with
    | a :: r => (ls, some (r.foldl (fun b l => if l.way < b.way then l else b) a))
    | [] => victimWay n (ls.map fun l => { l with v := min 3 (l.v + 1) })

/-- A sector enters a slice: where it comes without metadata it is given the die's settle floor (R305). -/
def State.enterSector (s : State) (x : Nat) : State := { s with rmeta := s.rmeta.put x (s.metaOf x) }

/-- A line is brought into its slice, or hit there (R265): `valid` marks the sectors it comes for, `dirty` those written, and `pin` holds
it (R252). It leaves the base-die cache when its slice holds all of it; till then the others of its sectors stay there (R266). -/
def State.touchLine (s : State) (pa rd valid dirty : Nat) (pin : Bool) : State :=
  if !s.isHbm pa then s
  else
    let die := dieOfPa pa
    let line := pa / 128
    match s.owner pa with
    | none => s
    | some cl =>
      let d := s.die die
      let held := s.heldSectors line
      let s := (([0, 1, 2, 3].filter fun i => valid.testBit i && !held.testBit i).map fun i => 4 * line + i).foldl State.enterSector s
      let base (d : Die) : List (Nat × Nat) := if held ||| valid = 15 then d.baseCache.filter fun e => e.2 != line else d.baseCache
      if d.slices.any fun l => l.line == line then
        s.onDie die fun d => { d with baseCache := base d, slices := d.slices.map fun l =>
          if l.line = line then
            { l with v := if l.once then l.v else 0, valid := l.valid ||| valid, dirty := l.dirty ||| dirty, pin := l.pin || pin }
          else l }
      else
        let sl := sliceOf pa
        let set := Config.sliceSet line % 1024
        let (mine, rest) := d.slices.partition fun l => l.cluster == cl && l.slice == sl && l.set == set
        let (mine, out) := if mine.length < 16 then (mine, none) else victimWay 4 mine
        let way := match out with
          | some l => l.way
          | none => ((List.range 16).find? fun w => !(mine.any fun l => l.way == w)).getD 0
        let mine := mine.filter fun l => l.way != way
        let new : SliceLine := ⟨line, cl, sl, set, way, hintV rd, rd % 4 == 3, pin, valid, dirty⟩
        let s := s.onDie die fun d =>
          { d with slices := rest ++ mine ++ [new], baseCache := base d }
        match out with
        | some l => s.toBase die l.line
        | none => s

/-- The background sweep of a die settles what lies 2^38 or more below the highest clock seen (R308). -/
def State.sweep (s : State) (die : Nat) : State :=
  let top := (s.die die).peak
  let old (v : Nat) : Bool := decide (2 ^ 38 ≤ (top + 2 ^ 40 - v) % 2 ^ 40) && stampLt v top
  let out := s.rmeta.filter fun e => s.homeDie (32 * e.1) == die && (old e.2.w || old e.2.r)
  out.foldl (fun s e => s.settle e.1) s

/-! ### The physical space (R167, R168, R261, R262) -/

/-- What a byte of the on-chip map names (R167). -/
inductive MapCell
  | spad (core p : Nat)
  | reg (core g n l b : Nat)
  | acc (core t i j b : Nat)
  | none
deriving DecidableEq, Repr

/-- The item of the on-chip map at an address; a cluster that start-up removed has none left (R8, log 68). -/
def State.mapCell (s : State) (pa : Nat) : MapCell :=
  let o := ofsOf pa - 2 ^ 40
  let core := o / 2 ^ 21
  let b := o % 2 ^ 21
  if (clusterOf core).any s.isRemoved then .none
  else if b < 0x60000 then .spad core b
  else if 0x80000 ≤ b ∧ b < 0xE0000 then
    let r := b - 0x80000
    .reg core (r / 0x1000) (r % 0x1000 / 128) (r / 4 % 32) (r % 4)
  else if 0x100000 ≤ b ∧ b < 0x120000 then
    let r := b - 0x100000
    .acc core (r / 0x8000) (r % 0x8000 / 512) (r / 4 % 128) (r % 4)
  else .none

/-- The group of a core whose window holds a granule, with the granule's place in it. -/
def Core.granuleOwner (k : Core) (g : Nat) : Option (Nat × Nat) :=
  k.groups.findSome? fun e => (e.2.window.findIdx? fun w => w == g).map fun i => (e.1, i)

/-- A byte of the on-chip map; a register of no window reads zero (R168). -/
def State.mapByte (s : State) (pa : Nat) : Nat :=
  match s.mapCell pa with
  | .spad c p => (sget (s.core c).spad p).toNat
  | .reg c g n l b =>
    match (s.core c).granuleOwner g with
    | some (gid, i) => (sget (s.group c gid).v (32 * (32 * i + n) + l)).toNat / 256 ^ b % 256
    | none => 0
  | .acc c t i j b => (s.core c).accGet t i j / 256 ^ b % 256
  | .none => 0

/-- A byte of the on-chip map written (R168). -/
def State.setMapByte (s : State) (pa v : Nat) : State :=
  match s.mapCell pa with
  | .spad c p => s.onCore c fun k => k.spadWrite p 1 v
  | .reg c g n l b =>
    match (s.core c).granuleOwner g with
    | some (gid, i) => s.onGroup c gid fun x =>
        let r := 32 * i + n
        x.setV r l (setBits (sget x.v (32 * r + l)).toNat (8 * b + 7) (8 * b) v)
    | none => s
  | .acc c t i j b => s.onCore c fun k => k.accPut t i j (setBits (k.accGet t i j) (8 * b + 7) (8 * b) v)
  | .none => s

/-- Whether n bytes of the on-chip map all name something (R167). -/
def State.mapNames (s : State) (pa n : Nat) : Bool := (List.range n).all fun i => s.mapCell (pa + i) != .none
/-- Whether a write of n bytes meets a busy accumulator tile and must wait (R168). -/
def State.mapBusy (s : State) (pa n : Nat) : Bool :=
  (List.range n).any fun i => match s.mapCell (pa + i) with | .acc c t _ _ _ => (s.core c).accBusy t | _ => false

/-- Whether a byte of the on-chip map is uncorrectable, or of a word whose parity fails (R444). -/
def State.mapBad (s : State) (pa : Nat) : Bool :=
  match s.mapCell pa with
  | .spad c p => (s.core c).badSpad.contains p
  | .reg c g n l _ =>
    match (s.core c).granuleOwner g with
    | some (gid, i) => (s.group c gid).badV.contains (32 * (32 * i + n) + l)
    | none => false
  | .acc c t i j _ => (s.core c).badAcc.contains (accKey t i j)
  | .none => false

/-- Whether n bytes at a physical address hold uncorrectable data (R444). -/
def State.spoiled (s : State) (pa n : Nat) : Bool :=
  if s.isOnChip pa then (List.range n).any fun i => s.mapBad (pa + i) else s.poisoned pa n

/-- n bytes at a physical address. -/
def State.pread (s : State) (pa : Nat) : Nat → Nat
  | 0 => 0
  | n + 1 =>
    if s.isOnChip pa then s.mapByte pa + 256 * s.pread (pa + 1) n
    else if s.isMgmt pa then s.mgmtRead (mgmtOffset pa) else s.read pa (n + 1)

/-- The bytes of n whose mask bit is set written at a physical address; a whole sector written is no longer uncorrectable. -/
def State.pwrite (s : State) (pa n v mask : Nat) : State :=
  if s.isOnChip pa then
    (List.range n).foldl (fun s i => if mask.testBit i then s.setMapByte (pa + i) (v / 256 ^ i % 256) else s) s
  else if s.isMgmt pa then
    s.mgmtWrite (mgmtOffset pa) ((List.range 8).foldl (fun w i =>
      if mask.testBit i then setBits w (8 * i + 7) (8 * i) (v / 256 ^ i % 256) else w) (s.mgmtRead (mgmtOffset pa)))
  else
    let whole (x : Nat) : Bool := (List.range 32).all fun i => decide (pa ≤ 32 * x + i) && mask.testBit (32 * x + i - pa)
    { s.writeMasked pa n v mask with poison := s.poison.filter fun x => !((sectorsOf pa n).contains x && whole x) }

/-! ### Fault records (R275 to R278) -/

/-- Entries of a fault queue in use or owed (R278). -/
def Die.fqCount (d : Die) : Nat := (bits d.fqptr.toNat 44 32 + 8192 - bits d.fqptr.toNat 12 0) % 8192 + d.faults.length

/-- A fault record's 64 bytes, little-endian (R277). -/
def FaultRec.image (r : FaultRec) : Nat :=
  r.va % 2 ^ 53 + r.pc * 2 ^ 64 + r.seqno * 2 ^ 128 + r.rowid * 2 ^ 160 + r.lanes * 2 ^ 192 + r.core * 2 ^ 224 +
  r.lane * 2 ^ 240 + r.kind * 2 ^ 248 + r.stamp * 2 ^ 256 + r.asid * 2 ^ 320 + r.vmid * 2 ^ 336 + r.cause * 2 ^ 352 +
  r.slotByte * 2 ^ 360 + r.log * 2 ^ 368 + r.ipa * 2 ^ 384

/-- n bytes that a unit of the die reads at a physical address of its own, which reaches neither the on-chip map (R168) nor the management
region: what is uncorrectable, or lies there, is free (log 35). -/
def State.unitRead (s : State) (pa n : Nat) : Nat :=
  if s.poisoned pa n || s.isOnChip pa || s.isMgmt pa then Config.badData s.free pa % 256 ^ n else s.pread pa n

/-- n bytes of one line that such a unit writes; nothing, where the space is closed to it (R168). -/
def State.unitWrite (s : State) (pa n v : Nat) : State :=
  if s.isOnChip pa || s.isMgmt pa then s
  else ((s.oneSlot pa n).touchLine pa 0 (lineSectors pa n) (lineSectors pa n) false).pwrite pa n v (2 ^ n - 1)

/-- A sector's clock raised by a write that is stamped and neither checked nor recorded (R278, R295): no byte stands in its masks. -/
def State.stampSector (s : State) (pa : Nat) : State :=
  if isHost pa || s.isOnChip pa || s.isMgmt pa then s
  else
    let x := pa / 32
    let st := stampNext (s.metaOf x).clock
    { s with rmeta := s.rmeta.put x { s.metaOf x with w := st, wh := 0, wmask := 0 } }.onDie (s.homeDie pa) fun d => { d with peak := stampMax d.peak st }

/-- The oldest record is written, if the queue is enabled and has room, and TAIL after it, which is stamped (R278). -/
def State.writeFault (s : State) (die : Nat) : State :=
  let d := s.die die
  let base := bits d.fqbase.toNat 51 19 * 2 ^ 19
  let tail := bits d.fqptr.toNat 44 32
  let head := bits d.fqptr.toNat 12 0
  match d.faults with
  | [] => s
  | r :: rest =>
    let at_ := base + 64 * (tail % 4096)
    let word := base + 0x40000
    if !bit d.fqbase.toNat 0 || (tail + 8192 - head) % 8192 == 4096 || s.slotFull at_ 64 || s.slotFull word 8 then s
    else
      let t := (tail + 1) % 8192
      let s := ((s.unitWrite at_ 64 r.image).unitWrite word 8 t).stampSector word
      s.onDie die fun d => { d with faults := rest, fqptr := BitVec.ofNat 64 (setBits d.fqptr.toNat 44 32 t) }

/-- Whether a lane's set stalls because one of its records is still to be written (R278). -/
def State.recordOwed (s : State) (core gid l : Nat) : Bool :=
  (s.die (dieOf core)).faults.any fun r => r.core == core && r.gid == gid && r.setLanes.testBit l

/-- KIND of R277 for an access. -/
def AccKind.faultKind : AccKind → Nat
  | .load _ => 0
  | .waitv _ => 0
  | .store => 1
  | .acpIn _ _ => 3
  | .acpOut _ => 1
  | .proj _ _ _ => 0
  | .again k => k
  | .commit _ _ _ => 6
  | _ => 2

/-- What an access needs of a leaf (R270). -/
def AccKind.need : AccKind → Need
  | .load _ => .load
  | .waitv _ => .load
  | .acpIn _ _ => .load
  | .proj _ _ _ => .load
  | .store => .store
  | .acpOut _ => .store
  | _ => .atomic

/-- The operand-log entries a core has free, lowest first (R276). -/
def State.logFree (s : State) (core : Nat) : List Nat :=
  (List.range 64).filter fun i => !(s.accesses.any fun a => a.core == core && a.log == some i)

/-- Whether an access has failed to translate at its first try and finds no entry: its group stalls (R276). -/
def Access.stallsGroup (a : Access) : Bool := a.logWait && a.stage == .issued && !a.held

/-- The instructions that wait for an entry, those that need one only after their issue first (R276): group and SEQNO. -/
def State.logWaiters (s : State) (core : Nat) : List (Nat × Nat) :=
  let (last, first) := (s.accesses.filter fun a => a.core == core && a.logWait).partition Access.stallsGroup
  (first ++ last).foldl (fun l a =>
    if l.contains (a.gid, a.seqno) then l else l ++ [(a.gid, a.seqno)]) []

/-- The operand-log entry of an instruction that needs one: its own; else a free one, if those that wait before it leave one (R276). -/
def State.logFor (s : State) (core gid seqno : Nat) : Option Nat :=
  match s.accesses.find? (fun a => a.core == core && a.gid == gid && a.seqno == seqno && a.log.isSome) with
  | some a => a.log
  | none =>
    let ws := s.logWaiters core
    (s.logFree core)[(ws.findIdx? fun w => w == (gid, seqno)).getD ws.length]?

/-- An access changed by its number. -/
def State.setAccess (s : State) (a : Access) : State :=
  { s with accesses := s.accesses.map fun b => if b.id = a.id then a else b }
/-- An access by its number. -/
def State.access? (s : State) (id : Nat) : Option Access := s.accesses.find? fun a => a.id == id
/-- An access removed. -/
def State.dropAccess (s : State) (id : Nat) : State := { s with accesses := s.accesses.filter fun a => a.id != id }

/-- The fault record of lanes that failed on one page (R277), with the lane lists of the record. -/
def State.faultOf (s : State) (a : Access) (lanes : Nat) (f : XFail) (log : Option Nat) : FaultRec :=
  let k := s.core a.core
  let x := s.group a.core a.gid
  let (pt, vm) := k.roots a.slot
  { va := a.va, pc := a.pc.toNat, seqno := a.seqno, rowid := x.rowid (dieOf a.core) a.lane, lanes := lanes, core := a.core,
    lane := a.lane, kind := a.kind.faultKind, stamp := (x.lane a.lane).c, asid := bits pt 11 0, vmid := bits vm 11 0,
    cause := f.cause, slotByte := a.slot * 64 + (if a.mode = .u then 0 else 32) + a.gid, log := log.getD 0xFFFF,
    ipa := f.ipa, gid := a.gid, setLanes := lanes }

/-! ### Order (R276, R286, R300, R303) -/

/-- Whether two ranges share a byte. -/
def rangesMeet (a n b m : Nat) : Bool := decide (a < b + m) && decide (b < a + n)

/-- The physical address of an access by which it is compared with others: that of a replicated page's own place in its die's memory,
since a store goes to every replica (R284). -/
def Access.place (a b : Access) : Nat := if a.repl || b.repl then a.pa % 2 ^ 38 else a.pa

/-- An access with its physical address, as it has it or as its translation would give it now; none where that fails. -/
def State.located (s : State) (a : Access) : Option Access :=
  if (a.stage = .issued ∨ a.stage = .parked) ∧ a.race.isNone then
    match s.translate a.core a.slot a.mode a.kind.need a.va with
    | .ok pa => some { a with pa := pa }
    | .error _ => none
  else some a

/-- Whether two accesses of a lane overlap (R276, R300): by virtual address, or by physical address where both are known. -/
def State.meets (s : State) (a b : Access) : Bool :=
  rangesMeet a.va a.size b.va b.size ||
  (rangesMeet (a.va % 8192) a.size (b.va % 8192) b.size &&
    match s.located a, s.located b with
    | some a, some b => rangesMeet (a.place b) a.size (b.place a) b.size
    | _, _ => false)

/-- Whether an access writes (R276): what is held behind a parked one. -/
def Access.writes (a : Access) : Bool :=
  match a.kind with
  | .load _ => false
  | .waitv _ => false
  | .acpIn _ _ => false
  | .proj _ _ _ => false
  | .again _ => false
  | .commit _ _ _ => false
  | _ => true

/-- Whether an access is a release or an SC access (R298, R300, R329). -/
def Access.isRelease (a : Access) : Bool :=
  match a.kind with
  | .prel => true
  | _ => (a.sem == 2 && a.writes) || a.sem == 3

/-- Whether an access goes to host memory, as far as its translation tells now (R263): it acts as a relaxed one. -/
def State.goesToHost (s : State) (a : Access) : Bool := (s.located a).any fun b => isHost b.pa

/-- Whether an access is not yet performed. -/
def Access.pending (a : Access) : Bool := a.stage != .replying

/-- Whether two accesses belong to one lane. -/
def Access.sameLane (a b : Access) : Bool := a.core == b.core && a.gid == b.gid && a.lane == b.lane

/-- Whether an access is one of the lane's own, not a copy of ACP or ACPS. -/
def Access.plainLane (a : Access) : Bool := match a.kind with | .acpIn _ _ => false | .acpOut _ => false | _ => true

/-- The earlier accesses of a lane whose reply has not come. -/
def State.before (s : State) (a : Access) : List Access :=
  s.accesses.filter fun b => b.sameLane a && decide (b.id < a.id) && b.plainLane && a.plainLane

/-- The earlier accesses of a lane that are not performed. -/
def State.older (s : State) (a : Access) : List Access := (s.before a).filter Access.pending

/-- The earlier accesses of a lane that have parked or been held, and have not performed since (R276); transfers of ACP and ACPS too, for
they hold the lane's younger stores as a parked load or store does (R350). -/
def State.stuckBefore (s : State) (a : Access) : List Access :=
  s.accesses.filter fun b => b.sameLane a && decide (b.id < a.id) && b.pending && b.late && a.plainLane

/-- Whether an access is one that R276 holds behind a parked access of its lane: a store, an atomic, a release, an SC access, and a
load that overlaps a parked or held store. -/
def State.mustHold (s : State) (a : Access) : Bool :=
  let stuck := s.stuckBefore a
  a.plainLane && !stuck.isEmpty && (a.writes || (a.isRelease && !s.goesToHost a) || stuck.any fun b => b.writes && s.meets b a)

/-- Whether an access is still held: an access before it that has parked or been held has not performed (R276, R279). -/
def State.isHeld (s : State) (a : Access) : Bool := a.held && !(s.stuckBefore a).isEmpty

/-- Whether an access has come up at its owner and waits there for what others do: a PACQ queued or turned away (R329, R330), a WAITV
(R292). The higher lanes of its instruction are not kept back. -/
def State.waitsForOthers (_s : State) (a : Access) : Bool :=
  match a.kind with
  | .waitv _ => true
  | .pacq => a.queued || a.away
  | _ => false

/-- Whether an access and an earlier one of its lane keep program order for the bytes they share (R300); a load that is parked or held
keeps no other load back (R276). -/
def State.ordered (s : State) (b a : Access) : Bool :=
  s.meets b a && !((b.stage == .parked || b.logWait || s.isHeld b) && !b.writes && !a.writes)

/-- Whether two accesses beyond the package go to one destination from one die (R303). -/
def Access.samePortal (a b : Access) : Bool :=
  dieOf b.core == dieOf a.core && isHost b.pa == isHost a.pa && (isHost a.pa || pkgOf b.pa == pkgOf a.pa)

/-- Whether an access stores to MSIXDB: its message follows what the portal has accepted for host memory before it, and its lane's older
stores there (R439, R440). -/
def State.ringsHost (s : State) (a : Access) : Bool := a.writes && s.isMgmt a.pa && mgmtOffset a.pa == 0x18

/-- Whether an access may perform now as far as its lane, its instruction and its portal order it. A release waits until the replies
of every access before it are back (R298, R300). -/
def State.inOrder (s : State) (a : Access) : Bool :=
  let old := s.older a
  !s.isHeld a &&
  !(old.any fun b => s.ordered b a) &&
  !(s.accesses.any fun b => b.core == a.core && b.gid == a.gid && b.seqno == a.seqno && decide (b.lane < a.lane) && b.pending &&
      b.stage != .parked && !b.logWait && !s.isHeld b && !s.waitsForOthers b) &&
  (!a.isRelease || (s.before a).all (s.letsRelease a.scope)) &&
  !(isHost a.pa && old.any fun b => b.stage == .issued || isHost b.pa) &&
  !(s.ringsHost a && s.accesses.any fun b =>
      b.writes && ((b.stage == .granted && b.id != a.id && isHost b.pa) || (s.goesToHost b && old.any fun q => q.id == b.id))) &&
  !(!s.isOwn a.pa && s.accesses.any fun b =>
      b.stage == .granted && decide (a.stage ≠ .granted ∨ b.order < a.order) && b.id != a.id && !s.isOwn b.pa && a.samePortal b)

/-! ### Holding (R276) -/

/-- An access held, with an entry of the operand log or waiting for one; it gives up a request slot. -/
def State.hold (s : State) (a : Access) : State :=
  let log := s.logFor a.core a.gid a.seqno
  s.setAccess { a with held := true, late := true, log := log, logWait := log.isNone, stage := if a.stage = .granted then .ready else a.stage }

/-- The younger accesses of a lane held behind one that has parked, in program order. -/
def State.holdBehind (s : State) (a : Access) : State :=
  (s.accesses.filter fun b => b.sameLane a && decide (a.id < b.id) && b.pending && b.stage != .parked && !b.held).foldl (fun s b =>
    if s.mustHold b then s.hold b else s) s

/-- An access parked (R275, R276, R309), and what is behind it held. -/
def State.park (s : State) (a : Access) : State :=
  let log := s.logFor a.core a.gid a.seqno
  (s.setAccess { a with stage := .parked, log := log, logWait := log.isNone, late := true }).holdBehind a

/-! ### Translation of an instruction's accesses (R273 to R276, R284) -/

/-- Whether an invalidation covers an access's page. -/
def State.invalCovers (s : State) (i : Inval) (a : Access) : Bool :=
  let (pt, vm) := (s.core a.core).roots a.slot
  i.targets.any fun t => s.removes t (bits pt 11 0) (bits vm 11 0) a.va

/-- Whether an access must wait to translate until an invalidation of its page has taken effect (R283). -/
def State.invalHolds (s : State) (a : Access) : Bool := s.invals.any fun i => s.invalCovers i a

/-- Whether an access must wait to translate, for an invalidation or for the walker's request slots (R267, R283). -/
def State.walkHolds (s : State) (a : Access) : Bool := s.pageWaits a.core a.slot a.va

/-- An access after its translation: parked, or ready at its physical address (R275, R284). One to host memory is relaxed at domain
scope (R263). -/
def State.translateOne (s : State) (a : Access) : State × Option XFail :=
  match s.lookup a.core a.slot a.va with
  | .error f => (s, some f)
  | .ok r =>
    match s.permit r.1 a.mode a.kind.need a.va (dieOf a.core) false with
    | .error f => (s.install a.core a.slot a.va r, some f)
    | .ok pa =>
      let s := s.install a.core a.slot a.va r
      if s.isMgmt pa ∧ !mgmtAccessOk pa a.size then (s, some ⟨6, 0⟩)
      else
        let s := if a.kind.need = .load then s else s.setDirty a.core r.1 a.va
        let a := if isHost pa then { a with sem := 1, scope := 3 } else a
        (s.setAccess { a with stage := .ready, pa := pa, logWait := false, repl := r.1.repl && decide (a.kind.need ≠ .load) }, none)

/-- The accesses of an instruction translated in ascending lane order; the failing ones with their causes. -/
def State.translateAll (s : State) : List Access → State × List (Access × XFail)
  | [] => (s, [])
  | a :: r =>
    let (s, f) := s.translateOne a
    let (s, fs) := s.translateAll r
    (s, match f with | some f => (a, f) :: fs | none => fs)

/-- Accesses that failed park: one record for each page, one operand-log entry for the instruction (R275, R276). Where the log has none,
they stay as they are and wait for one. -/
def State.parkAll (s : State) (core gid seqno : Nat) (fs : List (Access × XFail)) : State :=
  match s.logFor core gid seqno with
  | none => fs.foldl (fun s e => (s.setAccess { e.1 with logWait := true, late := true }).holdBehind e.1) s
  | some log =>
    let s := fs.foldl (fun s e => s.setAccess { e.1 with stage := .parked, log := some log, logWait := false, late := true }) s
    let s := fs.foldl (fun s e =>
      if e.1.tx then s.onLane core gid e.1.lane fun k => { k with tx := { k.tx with faulted := true } } else s.holdBehind e.1) s
    let firsts := fs.filter fun e => !(fs.any fun q => q.1.va / 8192 == e.1.va / 8192 && decide (q.1.lane < e.1.lane))
    firsts.foldl (fun s e =>
      let lanes := maskOf ((fs.filter fun q => q.1.va / 8192 == e.1.va / 8192).map fun q => q.1.lane)
      s.postFault (dieOf core) (s.faultOf e.1 lanes e.2 (some log))) s

/-- What an instruction has parked or held without an entry takes one that is free (R276). -/
def State.takeLog (s : State) (core gid seqno : Nat) : State :=
  let log := s.logFor core gid seqno
  if log.isNone then s
  else { s with accesses := s.accesses.map fun a =>
    if a.core = core ∧ a.gid = gid ∧ a.seqno = seqno ∧ a.logWait ∧ !a.stallsGroup then { a with log := log, logWait := false } else a }

/-- Whether an instruction has something that would take a free entry. -/
def State.takesLog (s : State) (a : Access) : Bool := a.logWait && !a.stallsGroup && (s.logFor a.core a.gid a.seqno).isSome

/-- Whether an access may try its translation as far as the operand log goes (R276): one that found no entry fails again, or has an
entry now. -/
def State.logTries (s : State) (a : Access) : Bool :=
  !a.logWait || (s.logFor a.core a.gid a.seqno).isSome ||
  (match s.translate a.core a.slot a.mode a.kind.need a.va with | .error _ => false | .ok _ => true)

/-- The walks of an instruction end (R273, R275), for those of its accesses that may translate now. -/
def State.walksEnd (s : State) (core gid seqno : Nat) (ok : Access → Bool) (load : Access → Access) : State :=
  let s := s.takeLog core gid seqno
  let mine := s.accesses.filter fun a => a.core == core && a.gid == gid && a.seqno == seqno && a.stage == .issued && ok a
  let (s, fs) := s.translateAll (mine.map load)
  if fs.isEmpty then s else s.parkAll core gid seqno fs

/-! ### The detector (R305 to R311) -/

/-- The bytes of a sector that an access touches. -/
def Access.sectorMask (a : Access) (x : Nat) : Nat :=
  maskOf ((List.range 32).filter fun i =>
    decide (a.pa ≤ 32 * x + i) && decide (32 * x + i < a.pa + a.size) && a.mask.testBit (32 * x + i - a.pa))

/-- check of R306 on one sector: OTHER, hash, OMASK, KIND. -/
def SectorMeta.check (m : SectorMeta) (hash h mask : Nat) (reads writes : Bool) : Option (Nat × Nat × Nat × Nat) :=
  if mask &&& m.wmask ≠ 0 ∧ m.wh ≠ hash ∧ stampLt h m.w then some (m.w, m.wh, m.wmask, if reads then 0 else 1)
  else if writes ∧ mask &&& m.rmask ≠ 0 ∧ m.rh ≠ hash ∧ stampLt h m.r then some (m.r, m.rh, m.rmask, 2)
  else none

/-- Whether an access is checked: a plain one to domain memory, outside transactions (R307, R309). -/
def Access.checked (a : Access) : Bool :=
  a.sem == 0 && !a.irrev && !a.tx && !a.passed && !isHost a.pa && match a.kind with | .load _ => true | .store => true | _ => false

/-- The race of an access, if the detector finds one; the lanes of one instruction never race with one another (R286). -/
def State.raceOf (s : State) (a : Access) : Option (Nat × Nat × Nat × Nat) :=
  if !a.checked || s.isOnChip a.pa || s.isMgmt a.pa then none
  else (sectorsOf a.pa a.size).findSome? fun x =>
    let m := s.metaOf x
    (if a.peers.contains (x, m.w) then { m with wmask := 0 } else m).check (hashOf (s.fid a.core a.gid a.lane)) a.h (a.sectorMask x) (!a.writes) a.writes

/-- RACECTL's mode for a slot: 0 TRAP, 1 COUNT, 2 QUIET (R311). -/
def Core.raceMode (k : Core) (slot : Nat) : Nat := let m := bits k.racectl.toNat (2 * slot + 1) (2 * slot); if m = 3 then 0 else m

/-- COUNT of RACECTL raised by one (R311). -/
def Core.countRace (k : Core) : Core :=
  { k with racectl := BitVec.ofNat 64 (setBits k.racectl.toNat 63 32 (min (bits k.racectl.toNat 63 32 + 1) (2 ^ 32 - 1))) }

/-- An asynchronous event made pending for a lane (R412). -/
def State.addPending (s : State) (core gid l : Nat) (p : Pending) : State :=
  s.onLane core gid l fun k => { k with pend := k.pend ++ [p] }

/-- Whether an access brings its lane data. -/
def Access.receives (a : Access) : Bool :=
  match a.kind with
  | .store => false
  | .prel => false
  | .atomicR _ => false
  | .acpOut _ => false
  | _ => true

/-- Whether the data that an access brings its lane are uncorrectable (R444). -/
def State.failing (s : State) (a : Access) : Bool :=
  a.receives && a.size != 0 && s.poisoned a.pa a.size

/-- The lanes of an access's instruction that have received uncorrectable data, its own among them (R422). -/
def State.failingLanes (s : State) (a : Access) : Nat :=
  maskOf (a.lane :: (s.accesses.filter fun b => b.core == a.core && b.gid == a.gid && b.seqno == a.seqno && !b.orphan && s.failing b &&
    (b.stage == .replying || (b.stage == .parked && b.late))).map fun b => b.lane)

/-- An access that brings uncorrectable data parks, and UNCORR is pending for its lane, which goes on if it waited, as the lanes do that
stalled with it (R398, R412, R422). -/
def State.parkBad (s : State) (a : Access) (cause : Nat) : State :=
  let sector := ((sectorsOf a.pa a.size).find? s.poison.contains).getD (a.pa / 32)
  ((s.park { a with set := 0 }).addPending a.core a.gid a.lane
    ⟨19, cause, 32 * sector, s.failingLanes a, some a.id, none⟩).onLane a.core a.gid a.lane fun k =>
      if k.wait = .reply a.id ∨ k.wait = .waitv a.id ∨ k.wait = .permit a.id then { k with wait := .none, pc := nextPc k.pc } else k

/-- A race in TRAP mode: the access parks and the exception is pending (R309). -/
def State.parkRace (s : State) (a : Access) (r : Nat × Nat × Nat × Nat) : State :=
  let s := s.onCore a.core Core.countRace
  if a.orphan then s.dropAccess a.id
  else
    (s.park { a with race := some r }).addPending
      a.core a.gid a.lane ⟨18, r.2.2.2 + 1, a.va, 0, some a.id, none⟩

/-- A stamp that is not below those of the lower lanes of its instruction (R286, log 37). -/
def Access.atLeast (a : Access) (st : Nat) : Nat := a.floor.elim st (stampMax st)

/-- The stamp of an access over some sectors (R295, R286). -/
def State.stampOver (s : State) (a : Access) (xs : List Nat) : Nat :=
  a.atLeast (stampNext (xs.foldl (fun c x => stampMax c (s.metaOf x).clock) a.c))

/-- The stamp of an access over its sectors (R295). -/
def State.stampFor (s : State) (a : Access) : Nat := s.stampOver a (sectorsOf a.pa a.size)

/-- record of R306 for every sector of an access. -/
def State.record (s : State) (pa size hash stamp : Nat) (reads writes : Bool) (mask : Nat → Nat) : State :=
  let s := (sectorsOf pa size).foldl (fun s x =>
    let m := s.metaOf x
    let m := if writes then { m with w := stamp, wh := hash, wmask := mask x } else m
    let m := if reads then { m with r := stamp, rh := hash, rmask := mask x } else m
    { s with rmeta := s.rmeta.put x m }) s
  s.onDie (s.homeDie pa) fun d => { d with peak := stampMax d.peak stamp }

/-- The sectors that irrevocable runs hold locked, those of saved groups among them (R337, R425). -/
def State.allLocks (s : State) : List Nat :=
  (s.cores.flatMap fun k => k.2.groups.flatMap fun g => g.2.lanes.flatMap fun l => l.tx.locks) ++ s.awayLocks.map fun e => e.2

/-- Whose table locks an address of domain memory (R318, R337): its owner's, by package; which clusters another package has removed is not
known here. -/
def State.lockUnit (s : State) (pa : Nat) : Nat × Option Nat :=
  (pkgOf pa, if s.isHbm pa then s.owner pa else some (dieOfPa pa * 10 + ownerHash pa % 10))

/-- The irrevocable locks that an owner holds (R320, R337). -/
def State.locksAt (s : State) (unit : Nat × Option Nat) : Nat := (s.allLocks.filter fun y => s.lockUnit (32 * y) == unit).length

/-- The sectors of n bytes locked for the irrevocable run of a lane, or WIDE where their owner has no lock left (R337). -/
def State.lockFor (s : State) (core gid lane pa n : Nat) : State :=
  let t := ((s.group core gid).lane lane).tx
  if !(t.active && t.irrev) || isHost pa || beyondHbm pa then s
  else (sectorsOf pa n).foldl (fun s x =>
    if ((s.group core gid).lane lane).tx.locks.contains x then s
    else if s.locksAt (s.lockUnit (32 * x)) < 4095 then s.onLane core gid lane fun k => { k with tx := { k.tx with locks := k.tx.locks ++ [x] } }
    else s.onLane core gid lane fun k => { k with tx := { k.tx with wide := true } }) s

/-- The locks of an access of an irrevocable run at a place (R337). -/
def State.lockAt (s : State) (a : Access) (pa : Nat) : State := if a.irrev then s.lockFor a.core a.gid a.lane pa a.size else s

/-! ### The checkpoint log (R431 to R434) -/

/-- MODE of CKPTCFG (R431): 0 off, 1 record, 2 replay. -/
def Core.ckptMode (k : Core) : Nat := let m := bits k.ckptcfg.toNat 2 1; if m = 3 then 0 else m
/-- Whether a slot is logged (R431). -/
def Core.ckptLogs (k : Core) (slot : Nat) : Bool := k.ckptcfg.toNat.testBit (12 + slot)
/-- Entries that the log holds (R431, R432). -/
def Core.ckptRoom (k : Core) : Nat := 2048 * 2 ^ min 14 (bits k.ckptcfg.toNat 11 8)
/-- The physical address of an entry of the log. -/
def Core.ckptAt (k : Core) (n : Nat) : Nat := bits k.ckptcfg.toNat 51 16 * 65536 + 32 * n

/-- What an access is known by in the log: core, slot, GROUPID, lane, SEQNO and virtual address (R432). -/
structure CkptKey where
  core : Nat
  slot : Nat
  gid : Nat
  lane : Nat
  seqno : Nat
  va : Option Nat
deriving DecidableEq, Repr

/-- The key of an access. -/
def Access.ckptKey (a : Access) : CkptKey := ⟨a.core, a.slot, a.gid, a.lane, a.seqno, some a.va⟩

/-- An entry's 32 bytes, little-endian (R432). -/
def CkptKey.image (k : CkptKey) (va stamp prior : Nat) : Nat :=
  stamp + prior * 2 ^ 64 + k.seqno % 2 ^ 32 * 2 ^ 128 + k.core * 2 ^ 160 + (k.slot * 64 + k.lane) * 2 ^ 176 + k.gid % 32 * 2 ^ 184 +
  va % 2 ^ 53 * 2 ^ 192

/-- An entry written in record mode (R432); the entry that fills the log sets FULL. The address of a commit, which has none, is free
(log 57). -/
def State.ckptWrite (s : State) (a : CkptKey) (stamp prior : Nat) : State :=
  let k := s.core a.core
  if k.ckptMode ≠ 1 ∨ !k.ckptLogs a.slot ∨ bit k.ckptcfg.toNat 3 then s
  else
    let full := decide (k.ckptRoom ≤ k.ckptPos + 1)
    (s.write (k.ckptAt k.ckptPos) 32 (a.image (a.va.getD (Config.commitAddress s.free)) stamp prior)).onCore a.core fun k =>
      { k with ckptPos := k.ckptPos + 1, ckptcfg := if full then k.ckptcfg ||| 8#64 else k.ckptcfg }

/-- Whether an entry of the log is one of a lane (R433); one with stamp zero was never written. -/
def CkptKey.owns (a : CkptKey) (e : Nat) : Bool :=
  bits e 39 0 != 0 && bits e 180 176 == a.lane && bits e 191 184 == a.gid % 32

/-- The entry of an access in replay mode (R433): its stamp and PRIOR. Of several entries of one instruction it is the one that names the
access's address; a commit, of which no address is known, takes the first (log 57). -/
def State.ckptEntry (s : State) (a : CkptKey) : Option (Nat × Nat) :=
  let k := s.core a.core
  if k.ckptMode ≠ 2 ∨ !k.ckptLogs a.slot then none
  else (List.range k.ckptRoom).findSome? fun n =>
    let e := s.read (k.ckptAt n) 32
    if a.owns e && bits e 159 128 == a.seqno % 2 ^ 32 && a.va.all (fun va => bits e 244 192 == va % 2 ^ 53) then
      some (bits e 39 0, bits e 103 64)
    else none

/-- Whether replay halts a lane (R434): its next logged access, from its group's SEQNO on, has a stamp of CKPTSTOP or more. -/
def State.ckptHalts (s : State) (a : CkptKey) : Bool :=
  let k := s.core a.core
  k.ckptMode == 2 && k.ckptLogs a.slot &&
  ((List.range k.ckptRoom).findSome? fun n =>
    let e := s.read (k.ckptAt n) 32
    if a.owns e && decide (a.seqno ≤ bits e 159 128) then some (bits e 39 0) else none).elim false
      fun st => !stampLt st (k.ckptstop.toNat % 2 ^ 40)

/-- clock(x) over the sectors of a range (R295). -/
def State.clockAt (s : State) (pa n : Nat) : Nat :=
  (sectorsOf pa n).foldl (fun c x => stampMax c (s.metaOf x).clock) (s.metaOf (pa / 32)).clock

/-- Whether the last recorded write or read of a sector of a range came from another fibre (R305, R432). -/
def State.ckptForeign (s : State) (hash pa n : Nat) : Bool :=
  (sectorsOf pa n).any fun x =>
    match s.rmeta.find? x with
    | some m => (m.wmask != 0 && m.wh != hash) || (m.rmask != 0 && m.rh != hash)
    | none => false

/-- Whether an access is one that record mode logs (R432): ordered, atomic or a permit operation, or to a sector whose last
recorded write or read came from another fibre. -/
def State.ckptLogged (s : State) (a : Access) : Bool :=
  decide (2 ≤ a.sem) ||
  (match a.kind with | .atomic _ => true | .atomicR _ => true | .pacq => true | .prel => true | .ptry => true | _ => false) ||
  s.ckptForeign (hashOf (s.fid a.core a.gid a.lane)) a.pa a.size

/-- An access logged if record mode logs it; `before` is the state before it was performed. -/
def State.ckptNote (s before : State) (a : Access) (stamp : Nat) : State :=
  if before.ckptLogged a then s.ckptWrite a.ckptKey stamp (before.clockAt a.pa a.size) else s

/-- Whether replay lets an access perform (R433): its sector's clock is the entry's PRIOR. -/
def State.ckptReady (s : State) (a : Access) : Bool :=
  match s.ckptEntry a.ckptKey with
  | some (_, prior) => s.clockAt a.pa a.size == prior
  | none => true

/-- The stamp of an access: in replay mode its entry's (R433), else by R295. -/
def State.stampOf (s : State) (a : Access) : Nat :=
  match s.ckptEntry a.ckptKey with
  | some (st, _) => st
  | none => s.stampFor a

/-! ### Performance and reply (R295, R298) -/

/-- The C and H an access carries at performance: its own, or the lane's if it was held or parked. -/
def State.withClocks (s : State) (a : Access) : Access :=
  let k := (s.group a.core a.gid).lane a.lane
  if a.late && !a.orphan then { a with c := k.c, h := k.h } else a

/-- What an access leaves to the others of its instruction (R286): a store its stamps, so that they do not race with it, and each
access a stamp that the higher lanes do not go below. -/
def State.notePeers (s : State) (a : Access) (pa st : Nat) : State :=
  { s with accesses := s.accesses.map fun b =>
      if b.core = a.core ∧ b.gid = a.gid ∧ b.seqno = a.seqno ∧ b.id ≠ a.id then
        { b with peers := if a.kind = .store then b.peers ++ (sectorsOf pa a.size).map fun x => (x, st) else b.peers,
                 floor := if a.lane < b.lane then some (b.floor.elim st (stampMax st)) else b.floor }
      else b }

/-- An access performed: its reply is on its way, and its operand-log entry is free (R276). -/
def Access.performed (a : Access) (value stamp : Nat) (readOf horizon : Option Nat) : Access :=
  { a with stage := .replying, value := value, stamp := stamp, readOf := readOf, horizon := horizon, log := none, logWait := false }

/-- Whether the accesses at an address are stamped and recorded (R263, R307). -/
def State.stamped (s : State) (pa : Nat) : Bool := !isHost pa && !s.isOnChip pa && !s.isMgmt pa

/-- An access that reads and writes memory is performed at its owner with a stamp and recorded; `new` gives the bytes
written from the bytes read. -/
def State.performAt (s : State) (a : Access) (reads writes : Bool) (new : Nat → Nat) : State :=
  let old := s.pread a.pa a.size
  let w := (sectorsOf a.pa a.size).foldl (fun c x => stampMax c (s.metaOf x).w) (s.metaOf (a.pa / 32)).w
  let own := s.stamped a.pa
  let st := if own then s.stampOf a else a.c
  let before := s
  let bits := lineSectors a.pa a.size
  let s := s.touchLine a.pa a.rd bits (if writes then bits else 0) false
  let s := if writes then s.pwrite a.pa a.size (new old) a.mask else s
  let s := if own then s.record a.pa a.size (hashOf (s.fid a.core a.gid a.lane)) st reads writes a.sectorMask else s
  let s := if own then (s.ckptNote before a st).notePeers a a.pa st else s
  (s.lockAt a a.pa).setAccess (a.performed old st (if own && reads then some w else none) (if own then some w else none))

/-- Whether an access may perform: it has its slot, or its line stands in a slice (R267); one to another package has a port (R442). -/
def State.mayPerform (s : State) (a : Access) : Bool :=
  (a.stage == .granted || (a.stage == .ready && (s.inSlice a.pa a.size || (s.isOwn a.pa && !s.isHbm a.pa)))) && s.inOrder a && s.ckptReady a &&
    (!s.isPeer a.pa || (s.portFor a.pa).isSome)

/-- The condition of WAITV (R292): 0 NE, 1 EQ, 2 GEU. -/
def waitvMet (cond v d : Nat) : Bool := if cond = 0 then v != d else if cond = 1 then v == d else decide (d ≤ v)

/-- A load, store or WAITV is performed, or found racing (R295, R309). -/
def State.performAccess (s : State) (a : Access) : State :=
  let a := s.withClocks a
  match a.kind with
  | .waitv cond =>
    let v := s.pread a.pa a.size
    if waitvMet cond v a.data ∨ s.failing a then s.performAt a true false id
    else match a.timeout with
      | some t =>
        if t ≤ s.clk then s.setAccess { a.performed v a.c none none with sem := 1 }
        else s.setAccess { a with stage := .ready }
      | none => s.setAccess { a with stage := .ready }
  | _ =>
    match s.raceOf a with
    | some r =>
      match (s.core a.core).raceMode a.slot with
      | 0 => s.parkRace a r
      | 1 => (s.onCore a.core Core.countRace).performAt a (!a.writes) a.writes fun _ => a.data
      | _ => s.performAt a (!a.writes) a.writes fun _ => a.data
    | none => s.performAt a (!a.writes) a.writes fun _ => a.data

/-- A multicast store to every replica of a page with one stamp (R315): checked at each replica before any applies it. -/
def State.multicast (s : State) (a : Access) : State :=
  let a := s.withClocks a
  let at_ (d : Nat) : Access := { a with pa := replicaOf a.pa d }
  match [0, 1, 2, 3].findSome? fun d => s.raceOf (at_ d) with
  | some r =>
    if (s.core a.core).raceMode a.slot = 0 then s.parkRace a r
    else
      let s := if (s.core a.core).raceMode a.slot = 1 then s.onCore a.core Core.countRace else s
      go s a at_
  | none => go s a at_
where
  go (s : State) (a : Access) (at_ : Nat → Access) : State :=
    let st := match s.ckptEntry a.ckptKey with
      | some (st, _) => st
      | none => s.stampOver a ([0, 1, 2, 3].flatMap fun d => sectorsOf (at_ d).pa a.size)
    let before := s
    let s := [0, 1, 2, 3].foldl (fun s d =>
      let b := at_ d
      let bits := lineSectors b.pa a.size
      (((((s.touchLine b.pa a.rd bits bits false).pwrite b.pa a.size a.data a.mask).record b.pa a.size (hashOf (s.fid a.core a.gid a.lane)) st
        false true b.sectorMask).notePeers a b.pa st).lockAt a b.pa)) s
    (s.ckptNote before a st).setAccess (a.performed 0 st none none)

/-- Whether an access acquires at its reply (R298, R325, R329). -/
def Access.acquires (a : Access) : Bool :=
  match a.kind with
  | .store => false
  | .prel => false
  | .ptry => a.value == 0
  | .atomicR _ => false
  | .acpIn _ _ => false
  | .acpOut _ => false
  | _ => decide (2 ≤ a.sem)

/-- The clocks of a lane after a reply (R295, R298). -/
def Lane.reply (k : Lane) (a : Access) : Lane :=
  let k := { k with c := stampMax k.c a.stamp, p := a.readOf.elim k.p (stampMax k.p) }
  if a.acquires then a.horizon.elim k k.acquire else k

/-- The value a reply writes to its register. -/
def Access.result (a : Access) : Nat :=
  match a.kind with
  | .load sx => extend sx a.size a.value
  | _ => a.value

/-- A datum of n registers' worth written on reply. -/
def Group.putReply (x : Group) (a : Access) : Group :=
  if a.regs = 1 then x.put32 a.dest a.lane a.result
  else if a.regs = 2 then x.put64 a.dest a.lane a.result
  else x.putRegs a.dest a.lane a.result a.regs

/-- A reply returns (R295): clocks, the destination, and on with a lane that waited for it. An uncorrectable error parks the
access and is pending for the lane (R412, R444). -/
def State.replyAccess (s : State) (a : Access) : State :=
  if a.orphan then s.dropAccess a.id
  else if s.failing a then s.parkBad a 1
  else
    (s.dropAccess a.id).onGroup a.core a.gid fun x =>
      (x.putReply a).onLane a.lane fun k =>
        let k := k.reply a
        if k.wait = .reply a.id ∨ k.wait = .waitv a.id ∨ k.wait = .permit a.id then { k with wait := .none, pc := nextPc k.pc } else k

end Sys2Proof.Machine
end

