-- ==== Sys2Proof/Machine/MemInstr.lean ====
section
/-!
DEFINITION. The memory instructions of spec/11 and FENCE (R285 to R293, R316, R317), and what a transactional lane does in
their place (R332 to R334).
-/
namespace Sys2Proof.Machine

/-! ### Issue of accesses (R275, R276, R286, R300) -/

/-- An access of a lane as an FM instruction issues it; a register of the group is written by the lowest active lane's. -/
def State.newAccess (s : State) (c : Ctx) (l : Nat) (f : FM) (kind : AccKind) (va size : Nat) (dest : Operand) (regs : Nat) :
    Access :=
  let x := s.grp c
  let k := x.lane l
  { id := s.nextId, core := c.core, gid := c.gid, lane := l, seqno := x.seqno, pc := c.pc, mode := c.mode, slot := c.slot,
    kind := kind, sem := f.sem.toNat, scope := f.scope.toNat, rd := f.rd.toNat, va := va, size := size, data := 0, data2 := 0,
    mask := 2 ^ size - 1,
    dest := c.destOf dest l, regs := regs, tag := none, c := k.c, h := k.h, tx := false, irrev := k.tx.active && k.tx.irrev, stage := .issued, pa := 0,
    repl := false, log := none, passed := false, race := none, value := 0, stamp := 0, readOf := none, horizon := none, since := s.clk,
    timeout := none, late := false, held := false, logWait := false, queued := false, away := false, order := 0, floor := none, orphan := false,
    set := 0, peers := [] }

/-- An access added, under the next number; held at once where R276 holds it. -/
def State.addAccess (s : State) (a : Access) : State :=
  let a := { a with id := s.nextId }
  let s := { s with accesses := s.accesses ++ [a], nextId := s.nextId + 1 }
  if s.mustHold a then s.hold a else s

/-- Accesses of a lane in flight. -/
def State.ofLane (s : State) (c : Ctx) (l : Nat) : List Access :=
  s.accesses.filter fun a => a.core == c.core && a.gid == c.gid && a.lane == l && !a.orphan && a.plainLane

/-- Whether a lane runs the handler of one of its own parked accesses (R309, R412): a trap or a pending event of it names the access. -/
def State.handles (s : State) (core gid l : Nat) : Bool :=
  let k := (s.group core gid).lane l
  k.pend.any (fun p => p.access.isSome) || k.traps.any fun e => e.access.isSome

/-- Whether an access keeps the later ones of its lane from issuing until its reply (R300): an acquire read or an SC access, of memory of
the domain (R263). -/
def State.blocks (s : State) (a : Access) : Bool := (a.sem == 3 || a.acquires) && !s.goesToHost a

/-- Whether an access waits for a slot of a channel that has none (R267). -/
def State.slotWaits (s : State) (a : Access) : Bool :=
  a.stage == .ready && s.isHbm a.pa && decide (1024 ≤ s.slotsHeld (dieOfPa a.pa) (channelOf a.pa))

/-- Whether a lane may issue an access now (R267, R300): none of its acquire reads or SC accesses is outstanding, unless it runs the
handler of a parked access and that keeps them back; none waits for a full channel; a release or SC access goes only when the earlier
ones are over, or held with them behind a parked one. -/
def State.laneMayIssue (s : State) (c : Ctx) (releases : Bool) (scope l : Nat) : Bool :=
  let mine := s.ofLane c l
  let handles := s.handles c.core c.gid l
  !(mine.any fun a => s.blocks a && !(handles && (a.stage == .parked || s.isHeld a))) && !mine.any s.slotWaits &&
  (!releases || mine.all (s.letsRelease scope) || mine.all fun a => a.stage == .parked || s.isHeld a || s.letsRelease scope a)

/-- Whether the operand log keeps an instruction from issuing an access of a lane (R276): its group owes an entry, or the access would be
held and finds none. -/
def State.logBlocks (s : State) (a : Access) : Bool :=
  s.accesses.any (fun b => b.core == a.core && b.gid == a.gid && b.logWait) ||
  (s.mustHold { a with id := s.nextId } && (s.logFor a.core a.gid a.seqno).isNone)

/-- Whether an address of a lane is one of host memory, as far as its translation tells now (R263): its accesses act as relaxed ones. -/
def State.toHost (s : State) (c : Ctx) (need : Need) (va : Nat) : Bool :=
  match s.translate c.core c.slot c.mode need va with | .ok pa => isHost pa | .error _ => false

/-- The group is no longer idempotent (R424). -/
def State.notIdem (s : State) (c : Ctx) : State := s.onGrp c fun x => { x with idem := false }

/-- A memory trap with cause ALIGN for all active lanes (R286, R293, R409): each lane's own address. -/
def State.alignTrap (s : State) (c : Ctx) (kind : Nat) (addr : Nat → Nat) : State :=
  s.enterTraps c.core c.gid (fun l => ⟨kind, 1, c.pc, addr l, 0, none⟩) c.act

/-- Whether a lane is in a transaction that is not irrevocable (R332). -/
def Group.inTx (x : Group) (l : Nat) : Bool := (x.lane l).tx.active && !(x.lane l).tx.irrev

/-! ### Transactional accesses (R332 to R334) -/

/-- Bytes of a 32-byte value replaced where a mask is set. -/
def mergeBytes (old new mask : Nat) : Nat :=
  (List.range 32).foldl (fun v i => if mask.testBit i then setBits v (8 * i + 7) (8 * i) (new / 256 ^ i % 256) else v) old

/-- A sector as a transactional lane sees it: the write log over the read log over memory. -/
def State.txSector (s : State) (t : Tx) (x : Nat) : Nat :=
  let base := match t.reads.find? (fun e => e.pa == 32 * x) with
    | some e => e.bytes
    | none => s.pread (32 * x) 32
  match t.writes.find? (fun e => e.pa == 32 * x) with
  | some e => mergeBytes base e.bytes e.mask
  | none => base

/-- A write entered in a lane's write log. -/
def Tx.logWrite (t : Tx) (x va bytes mask : Nat) : Tx :=
  match t.writes.find? (fun e => e.pa == 32 * x) with
  | some e =>
    { t with writes := t.writes.map fun q => if q.pa = e.pa then { q with bytes := mergeBytes e.bytes bytes mask, mask := e.mask ||| mask } else q }
  | .none => { t with writes := t.writes ++ [⟨32 * x, va, bytes, mask⟩] }

/-- A read entered in a lane's read log; the log's 8th, 16th and 24th sector start a validation (R334). -/
def Tx.logRead (t : Tx) (x va bytes : Nat) : Tx :=
  if t.reads.any fun e => e.pa == 32 * x then t
  else
    let t := { t with reads := t.reads ++ [⟨32 * x, va, bytes, 2 ^ 32 - 1⟩] }
    if t.reads.length = 8 ∨ t.reads.length = 16 ∨ t.reads.length = 24 then { t with validating := some true } else t

/-- Why the translation of an access fails now, if it does; the management region takes accesses of one size alone (R435). -/
def State.fails? (s : State) (a : Access) : Option XFail :=
  match s.translate a.core a.slot a.mode a.kind.need a.va with
  | .error f => some f
  | .ok pa => if s.isMgmt pa && !mgmtAccessOk pa a.size then some ⟨6, 0⟩ else none

/-- Transactional accesses that fail to translate (R333): their lanes wait for the pager's answer; one record for each page (R275). -/
def State.txFaults (s : State) (fs : List (Access × XFail)) : State :=
  match fs with
  | [] => s
  | (a, _) :: _ =>
    let (s, es) := fs.foldl (fun (r : State × List (Access × XFail)) e =>
      let b := { e.1 with tx := true, id := r.1.nextId }
      (({ r.1 with accesses := r.1.accesses ++ [b], nextId := r.1.nextId + 1 }).onLane b.core b.gid b.lane fun k =>
        { k with wait := .reply b.id }, r.2 ++ [(b, e.2)])) (s, [])
    s.parkAll a.core a.gid a.seqno es

/-- A transactional load or store of a lane whose translation succeeds (R332, R333): its logs, its register; an abort where R333 gives
one. An access to the management region, which no log can hold, aborts as one to host memory does (log 14). -/
def State.txAccess (s : State) (a : Access) : State :=
  let core := a.core
  let gid := a.gid
  match s.lookup core a.slot a.va with
  | .error _ => s
  | .ok r =>
    let pa := r.1.place a.kind.need (dieOf core) a.va
    let s := s.install core a.slot a.va r
    if isHost pa ∨ s.isMgmt pa ∨ (a.writes ∧ r.1.repl) then s.abortTx core gid a.lane 3 id
    else
      let t := ((s.group core gid).lane a.lane).tx
      let b := { a with pa := pa }
      let at_ (x : Nat) : Nat := a.va + (32 * x - pa)
      if a.writes then
        let t := (sectorsOf pa a.size).foldl (fun t x =>
          t.logWrite x (at_ x) (if 32 * x < pa then a.data * 256 ^ (pa - 32 * x) else a.data / 256 ^ (32 * x - pa)) (b.sectorMask x)) t
        if 16 < t.writes.length then s.abortTx core gid a.lane 1 id
        else s.onLane core gid a.lane fun k => { k with tx := t }
      else
        let x := pa / 32
        let v := s.txSector t x
        let logged := t.reads.any fun e => e.pa == 32 * x
        if !logged && s.poisoned (32 * x) 32 then s.abortTx core gid a.lane 5 fun t => { t with trapk := trapkOf 19, deny := false } else
        let t := if logged then t else t.logRead x (at_ x) (s.pread (32 * x) 32)
        if 32 < t.reads.length then s.abortTx core gid a.lane 1 id
        else s.onGroup core gid fun g =>
          (g.putReply { a with value := v / 256 ^ (pa % 32) % 256 ^ a.size }).onLane a.lane fun k => { k with tx := t }

/-- Whether a transactional access must wait: for the lane's own earlier ones to the sectors that it reads or writes (R300), for its
translation (R267, R283), for a slot (R267), or for what the portal has accepted before it (R303). -/
def State.txWaits (s : State) (c : Ctx) (a : Access) : Bool :=
  let wide (b : Access) : Access := { b with va := b.va / 32 * 32, pa := b.pa / 32 * 32, size := (b.va % 32 + b.size + 31) / 32 * 32 }
  !s.laneMayIssue c false 0 a.lane || s.pageWaits c.core c.slot a.va ||
  ((s.ofLane c a.lane).any fun b => b.pending && s.meets (wide b) (wide a)) ||
  (s.located a).any fun b => s.portalBusy (dieOf c.core) b.pa || (!a.writes && s.slotFull b.pa a.size)

/-! ### LDG, STG, STGM, CCTL.ZERO (R286, R287, R291) -/

/-- Whether SEM makes an instruction a release: a write with SEM 10, or SC. -/
def releases (sem : BitVec 2) (writes : Bool) : Bool := (sem == 2 && writes) || sem == 3

/-- Accesses of the active lanes issue in ascending order (R286): each lane's own description, or none for a lane that
performs no access. -/
def State.issueAccesses (s : State) (c : Ctx) (f : FM) (trapKind size : Nat) (writes : Bool) (mk : State → Nat → Option Access) :
    Issued :=
  let x := s.grp c
  let addr (l : Nat) : Nat := fmAddr f x l
  if c.act.any fun l => addr l % size != 0 then .done (s.alignTrap c trapKind addr)
  else
    let (tx, ls) := c.act.partition x.inTx
    let need : Need := if writes then .store else .load
    let faults := (tx.filterMap (mk s)).filterMap fun a => (s.fails? a).map fun f => (a, f)
    let stalls (l : Nat) : Bool :=
      match mk s l with
      | none => false
      | some a => !s.laneMayIssue c (releases f.sem writes && !s.toHost c need (addr l)) f.scope.toNat l || s.logBlocks a
    if ls.any stalls || (tx.filterMap (mk s)).any (s.txWaits c) ||
        (!faults.isEmpty && (s.logFor c.core c.gid x.seqno).isNone) then .stall
    else
      let t := c.act.foldl (fun t l =>
        match mk t l with
        | some a =>
          if !x.inTx l then t.addAccess a
          else if faults.any (fun e => e.1.lane == l) then t else t.txAccess a
        | none => t) (s.advance c)
      let t := t.txFaults faults
      .done (if (writes && !ls.isEmpty) || ls.any (fun l => (x.lane l).tx.active) then t.notIdem c else t)

/-- LDG (R287). -/
def execLdg (f : FM) (s : State) : Host.Outcome State Fault Refusal :=
  let n := sizeOf f.sz
  s.issue [dstData f.d n, src64 f.a, src32 f.b] fun s c =>
    let x := s.grp c
    s.issueAccesses c f 13 n false fun s l =>
      some (s.newAccess c l f (.load (f.fn == 1)) (fmAddr f x l) n f.d (max 1 (n / 4)))

/-- STG (R287). -/
def execStg (f : FM) (s : State) : Host.Outcome State Fault Refusal :=
  let n := sizeOf f.sz
  s.issue [srcData f.d n, src64 f.a, src32 f.b] fun s c =>
    let x := s.grp c
    s.issueAccesses c f 13 n true fun s l =>
      some { s.newAccess c l f .store (fmAddr f x l) n .none 0 with data := x.rdData f.d l n }

/-- STGM (R287): a lane whose mask is zero performs no access. -/
def execStgm (f : FM) (s : State) : Host.Outcome State Fault Refusal :=
  let n := sizeOf f.sz
  s.issue [srcData f.d n, src64 f.a, src32 f.b, src32 f.c] fun s c =>
    let x := s.grp c
    s.issueAccesses c f 13 n true fun s l =>
      let mask := x.rd32 f.c l % 2 ^ n
      if mask = 0 then none
      else some { s.newAccess c l f .store (fmAddr f x l) n .none 0 with data := x.rdData f.d l n, mask := mask }

/-- CCTL.ZERO (R291): a store of 128 zero bytes. -/
def execCctlZero (f : FM) (s : State) : Host.Outcome State Fault Refusal :=
  s.issue [src64 f.a, src32 f.b] fun s c =>
    let x := s.grp c
    s.issueAccesses c f 13 128 true fun s l => some (s.newAccess c l f .store (fmAddr f x l) 128 .none 0)

/-! ### PREF, CCTL.EVICT, CCTL.HINT, TLBQ, PGHINT (R288 to R291) -/

/-- An address of a lane translated as a load, with the effect of the walk (R273); none where it fails, or where the page is being
invalidated (R281, R283). -/
def State.hintAddr (s : State) (c : Ctx) (va : Nat) : State × Option Nat :=
  if s.invalOn c.core c.slot va then (s, none)
  else match s.lookup c.core c.slot va with
  | .error _ => (s, none)
  | .ok r =>
    match s.permit r.1 c.mode .load va (dieOf c.core) false with
    | .error _ => (s, none)
    | .ok pa => (s.install c.core c.slot va r, some pa)

/-- Whether what a lane does to the line of an address must wait to issue: for its translation, where it is no prefetch, which an
invalidation drops (R281, R283), and a prefetch for a request slot of its line (R267, log 73). -/
def State.lineWaits (s : State) (c : Ctx) (prefetch : Bool) (va : Nat) : Bool :=
  if s.invalOn c.core c.slot va then !prefetch
  else s.pageWaits c.core c.slot va ||
    (prefetch && match s.translate c.core c.slot c.mode .load va with | .ok pa => s.slotFull (pa / 128 * 128) 128 | .error _ => false)

/-- Something done to the line of each active lane, in ascending order. -/
def State.eachLine (s : State) (f : FM) (prefetch : Bool) (act : State → Nat → State) : Host.Outcome State Fault Refusal :=
  s.issue [src64 f.a, src32 f.b] fun s c =>
    let x := s.grp c
    if c.act.any fun l => s.lineWaits c prefetch (fmAddr f x l) then .stall
    else .done (c.act.foldl (fun s l =>
      match s.hintAddr c (fmAddr f x l) with
      | (s, some pa) => if s.isHbm pa then act s pa else s
      | (s, none) => s) (s.advance c))

/-- A line brought into its slice for a prefetch (R288). -/
def State.prefSlice (s : State) (rd pa : Nat) : State := (s.oneSlot (pa / 128 * 128) 128).touchLine pa rd 15 0 false

/-- A line brought into its channel's base-die cache (R288), unless its slice holds all of it. -/
def State.prefMem (s : State) (pa : Nat) : State :=
  if s.heldSectors (pa / 128) = 15 then s
  else ((([0, 1, 2, 3].map fun i => 4 * (pa / 128) + i).foldl State.enterSector s).passSlot pa).toBase (dieOfPa pa) (pa / 128)

/-- PREF.SLICE (R288). -/
def execPrefSlice (f : FM) (s : State) : Host.Outcome State Fault Refusal := s.eachLine f true fun s pa => s.prefSlice f.rd.toNat pa
/-- PREF.MEM (R288). -/
def execPrefMem (f : FM) (s : State) : Host.Outcome State Fault Refusal := s.eachLine f true State.prefMem

/-- A line leaves its slice and its base-die cache; its sectors settle (R291, R266), and what is dirty is written back (R267). -/
def State.evictLine (s : State) (pa : Nat) : State :=
  let line := pa / 128
  let back := (s.die (dieOfPa pa)).slices.any fun l => l.line == line && l.dirty != 0
  if (s.die (dieOfPa pa)).slices.any fun l => l.line == line && l.pin then s
  else ((if back then s.passSlot pa else s).onDie (dieOfPa pa) fun d =>
    { d with slices := d.slices.filter fun l => l.line != line, baseCache := d.baseCache.filter fun e => e.2 != line }).settleLine line

/-- CCTL.EVICT (R291). -/
def execCctlEvict (f : FM) (s : State) : Host.Outcome State Fault Refusal := s.eachLine f false fun s pa => s.evictLine pa
/-- CCTL.HINT (R291). -/
def execCctlHint (f : FM) (s : State) : Host.Outcome State Fault Refusal :=
  s.eachLine f false fun s pa => s.onDie (dieOfPa pa) fun d =>
    { d with slices := d.slices.map fun l => if l.line = pa / 128 then { l with v := hintV f.rd.toNat } else l }

/-- TLBQ's value (R289). -/
def State.tlbqWord (s : State) (c : Ctx) (va : Nat) : Nat :=
  match s.lookup c.core c.slot va with
  | .error f => f.cause
  | .ok (e, _, _) =>
    let perm := (e.rights1 &&& e.rights2) % 8 + e.u.toNat * 8
    let frame := if c.mode = .u then 0 else bits (e.place .load (dieOf c.core) va) 51 13
    let w := e.leaf * 2 ^ 61 + e.fold.toNat * 2 ^ 60 + e.repl.toNat * 2 ^ 59 + perm * 2 ^ 52 + frame * 2 ^ 13
    match s.permit e c.mode .load va (dieOf c.core) false with
    | .ok _ => w + 2 ^ 63
    | .error f => w + f.cause

/-- A translation installed in the core's and the die's buffers, whatever rights it gives (R289). -/
def State.fillTlbs (s : State) (c : Ctx) (va : Nat) : State :=
  if s.invalOn c.core c.slot va then s
  else match s.lookup c.core c.slot va with
  | .error _ => s
  | .ok (e, inCore, _) =>
    s.install c.core c.slot va (e, inCore, (s.die (dieOf c.core)).ltlb.any fun x => x.covers e.asid e.vmid va)

/-- TLBQ (R289): D is an S register or an even V pair. -/
def State.tlbq (s : State) (f : FM) (fill : Bool) : Host.Outcome State Fault Refusal :=
  s.issue [{ dst64 f.d with noneOk := false }, src64 f.a, src32 f.b] fun s c =>
    let x := s.grp c
    let vs := c.act.map fun l => (l, s.tlbqWord c (fmAddr f x l))
    let t := (s.advance c).onGrp c fun y => y.wr c f.d true fun l => valueFor vs l
    .done (if fill then c.act.foldl (fun t l => t.fillTlbs c (fmAddr f x l)) t else t)

/-- TLBQ (R289). -/
def execTlbq (f : FM) (s : State) : Host.Outcome State Fault Refusal := s.tlbq f false
/-- TLBQ.FILL (R289). -/
def execTlbqFill (f : FM) (s : State) : Host.Outcome State Fault Refusal := s.tlbq f true

/-- Page count of PGHINT (R290). -/
def hintPages (f : FM) (x : Group) (l : Nat) : Nat := max 1 (min (x.rd32 f.c l) 256)

/-- Lanes act one after another, each giving a value, unless one of them must wait. -/
def State.laneValues (act : State → Nat → Option (State × Nat)) (s : State) : List Nat → Option (State × List (Nat × Nat))
  | [] => some (s, [])
  | l :: ls => (act s l).bind fun q => (q.1.laneValues act ls).map fun r => (r.1, (l, q.2) :: r.2)

/-- The lanes of a PGHINT act in ascending order, each giving its D (R290); it stalls where one must wait. -/
def State.pghint (s : State) (f : FM) (allowed : Ctx → Group → Bool) (act : State → Ctx → Nat → Option (State × Nat)) :
    Host.Outcome State Fault Refusal :=
  s.issueWith [] [dst32 f.d, src64 f.a, src32 f.b, src32 f.c] allowed fun s c =>
    match (s.advance c).laneValues (fun s l => act s c l) c.act with
    | none => .stall
    | some (t, vs) => .done (t.onGrp c fun y => y.wr c f.d false fun l => valueFor vs l)

/-- A HINT record posted, or dropped when fewer than 256 entries are free (R278, R290). -/
def State.postHint (s : State) (c : Ctx) (f : FM) (l : Nat) : State × Nat :=
  let x := s.grp c
  let d := s.die (dieOf c.core)
  if !bit d.fqbase.toNat 0 || 4096 < d.fqCount + 256 then (s, 1)
  else
    let a := s.newAccess c l f (.load false) (fmAddr f x l) 1 .none 0
    let r := s.faultOf a (2 ^ l) ⟨7, 0⟩ none
    (s.postFault (dieOf c.core) { r with pc := c.pc.toNat, kind := 8, setLanes := 0 }, 0)

/-- PGHINT.WILL (R290). -/
def execPghintWill (f : FM) (s : State) : Host.Outcome State Fault Refusal :=
  s.pghint f (fun _ _ => true) fun s c l => some (s.postHint c f l)
/-- PGHINT.DONT (R290). -/
def execPghintDont (f : FM) (s : State) : Host.Outcome State Fault Refusal :=
  s.pghint f (fun _ _ => true) fun s c l => some (s.postHint c f l)

/-- Privileged use of an instruction: S or H mode. -/
def notUser (c : Ctx) (_ : Group) : Bool := decide (c.mode ≠ .u)

/-! ### EXIT (R101) -/

/-- A lane that waits for an access waits no more, and stands at its instruction. -/
def Lane.unwait (k : Lane) (id : Nat) : Lane :=
  if k.wait = .reply id ∨ k.wait = .waitv id ∨ k.wait = .permit id then { k with wait := .none } else k

/-- A lane's parked or held access discarded, with the copy tag it counts in. -/
def State.discard (s : State) (a : Access) : State :=
  ((s.dropAccess a.id).onGroup a.core a.gid fun x => match a.tag with | some k => x.onTag k Tag.dec | none => x).onLane
    a.core a.gid a.lane fun k => k.unwait a.id

/-- The accesses of a lane that are parked or held. -/
def State.stuck (s : State) (core gid l : Nat) : List Access :=
  s.accesses.filter fun a => a.core == core && a.gid == gid && a.lane == l && !a.orphan && (a.stage == .parked || s.isHeld a)

/-- The lanes of a group that run irrevocably (R337). -/
def Group.runs (x : Group) (ls : List Nat) : List Nat := ls.filter fun l => (x.lane l).tx.active && (x.lane l).tx.irrev

/-- The parked and held accesses of those lanes that run the handler of one of theirs, and end in it, discarded (R309, R422). -/
def State.leaveHandler (s : State) (c : Ctx) : State :=
  ((c.act.filter fun l => ((s.grp c).lane l).traps.any fun e => e.access.isSome).flatMap fun l => s.stuck c.core c.gid l).foldl State.discard s

/-- EXIT (R101): inactive lanes go on. An irrevocable run that it ends is a release, as at TEND (R341). -/
def execExit (s : State) : Host.Outcome State Fault Refusal :=
  s.issue [] fun s c =>
    let s := s.leaveHandler c
    if c.act.any (fun l => s.hasUnfinished c.core c.gid l) || !s.mayRelease c.core c.gid 3 ((s.grp c).runs c.act) then .stall
    else match ((s.advance c).endLanes c.core c.gid c.act).submitAll c.core c.gid with
      | some s => .done s
      | none => .stall

/-! ### WAITV (R292) -/

/-- WAITV (R292): every active lane waits for its word; inside a transaction it aborts with ATOM (R333). In an irrevocable run it is an
irrevocable access, which ends idempotence (R424). -/
def State.waitv (s : State) (f : FM) (cond : Nat) : Host.Outcome State Fault Refusal :=
  let n := sizeOf f.sz
  s.issue [dstData f.d n, srcData f.d n, src64 f.a, src32 f.b, src32 f.c] fun s c =>
    let x := s.grp c
    if c.act.any fun l => fmAddr f x l % n != 0 then .done (s.alignTrap c 13 (fmAddr f x))
    else
      let (tx, ls) := c.act.partition x.inTx
      let mk (t : State) (l : Nat) : Access :=
        { t.newAccess c l f (.waitv cond) (fmAddr f x l) n f.d (n / 4) with
          data := x.rdData f.d l n,
          timeout := if f.c = .none then none else some (t.clk + x.rd32 f.c l) }
      if ls.any (fun l => !s.laneMayIssue c (f.sem == 3 && !s.toHost c .load (fmAddr f x l)) f.scope.toNat l || s.logBlocks (mk s l)) then .stall
      else
        let t := ls.foldl (fun t l =>
          (t.addAccess (mk t l)).onLane c.core c.gid l fun k => { k with wait := .waitv t.nextId }) ((s.advance c).retry c ls)
        let t := if ls.any (fun l => (x.lane l).tx.active) then t.notIdem c else t
        .done (tx.foldl (fun t l => t.abortTx c.core c.gid l 3 id) t)

/-- WAITV (R292): FN says the condition. -/
def execWaitv (f : FM) (s : State) : Host.Outcome State Fault Refusal := s.waitv f f.fn.toNat

/-! ### FENCE (R316, R317) -/

/-- A fence (R317): the waits of each active lane, then its clocks. -/
def State.fence (s : State) (f : FM) (rel acq : Bool) : Host.Outcome State Fault Refusal :=
  s.issue [] fun s c =>
    let reads (l : Nat) : Bool := (s.ofLane c l).any fun a => match a.kind with | .store => false | .prel => false | .atomicR _ => false | _ => true
    if rel && !s.mayRelease c.core c.gid f.scope.toNat c.act then .stall
    else if acq && c.act.any reads then .stall
    else .done ((s.advance c).onGrp c fun x => x.onLanes c.act fun _ k =>
      let k := if rel then { k with c := stampNext k.c } else k
      if acq then let h := stampMax k.h k.p; { k with h := h, c := stampMax k.c h } else k)

/-- FENCE.AR (R317). -/
def execFenceAr (f : FM) (s : State) : Host.Outcome State Fault Refusal := s.fence f true true
/-- FENCE.ACQ (R317). -/
def execFenceAcq (f : FM) (s : State) : Host.Outcome State Fault Refusal := s.fence f false true
/-- FENCE.REL (R317). -/
def execFenceRel (f : FM) (s : State) : Host.Outcome State Fault Refusal := s.fence f true false
/-- FENCE.SC (R317). -/
def execFenceSc (f : FM) (s : State) : Host.Outcome State Fault Refusal := s.fence f true true

end Sys2Proof.Machine
end

