-- ==== Sys2Proof/Machine/Svc.lean ====
section
/-!
DEFINITION. Service units (spec/13): atomics, permits and transactions (R318 to R343).
-/
namespace Sys2Proof.Machine

/-! ### Atomics (R322 to R326) -/

/-- The operation of ATOM and ATOMR by FN (R321). -/
def globalRmw (fn : Nat) : Rmw :=
  match fn with
  | 0 => .add | 1 => .sub | 2 => .min | 3 => .max | 4 => .and | 5 => .or | 6 => .xor | 7 => .exch | 8 => .cas | 9 => .incb
  | _ => .decb

/-- Whether the host port completes the AtomicOp that an operation of n bytes becomes (R326, R438). -/
def State.portalOk (s : State) (kind : AccKind) (n : Nat) : Bool :=
  let size := if n = 4 then s.hostAtomics.getLsbD 0 else if n = 8 then s.hostAtomics.getLsbD 1 else s.hostAtomics.getLsbD 2
  let mapped : Bool := match kind with
    | .atomic op => op == 0 || op == 1 || op == 7 || op == 8
    | .atomicR op => op == 0 || op == 1
    | _ => false
  mapped && size

/-- Whether a lane's request goes to host memory that cannot take it (R326). -/
def State.portalFails (s : State) (c : Ctx) (kind : AccKind) (va n : Nat) : Bool := s.toHost c .atomic va && !s.portalOk kind n

/-- Requests that a service unit may have queued (R319). -/
def unitQueue : Nat := 2048

/-- The service unit of a physical address (R318); one beyond the package's stands for all of another package. -/
def State.unitOf (s : State) (pa : Nat) : Nat := if s.isHbm pa then (s.owner pa).getD 1000 else 1000

/-- Whether an access is a request to a service unit. -/
def Access.isRequest (a : Access) : Bool :=
  match a.kind with | .atomic _ => true | .atomicR _ => true | .pacq => true | .prel => true | .ptry => true | _ => false

/-- The requests that a unit has queued (R319): those on their way to it; a PACQ that it has queued for a permit or turned away is not
among them. -/
def State.unitLoad (s : State) (unit : Nat) : Nat :=
  (s.accesses.filter fun a => a.isRequest && !a.queued && !a.away && (a.stage == .issued || a.stage == .ready || a.stage == .granted) &&
    (s.located a).any fun b => s.isHbm b.pa && s.unitOf b.pa == unit).length

/-- Whether the requests that an instruction would send to some addresses do not all fit into their units' queues (R19, R319). -/
def State.unitsFull (s : State) (pas : List Nat) : Bool :=
  let own := (pas.filter s.isHbm).map s.unitOf
  own.any fun u => decide (unitQueue < s.unitLoad u + own.count u)

/-- Where a lane's request would go, if its translation holds. -/
def State.requestAt (s : State) (c : Ctx) (va : Nat) : Option Nat := (s.translate c.core c.slot c.mode .atomic va).toOption

/-- Requests of the active lanes in ascending order (R322): misaligned ones trap all lanes, transactional lanes abort with
ATOM, lanes the portal cannot serve trap, the others send. -/
def State.issueRequests (s : State) (c : Ctx) (f : FM) (n : Nat) (kind : AccKind) (replies rel holds : Bool)
    (mk : Access → Nat → Access) : Issued :=
  let x := s.grp c
  let addr (l : Nat) : Nat := fmAddr f x l
  if c.act.any fun l => addr l % n != 0 then .done (s.alignTrap c 14 addr)
  else
    let (tx, out) := c.act.partition x.inTx
    let (bad, ls) := out.partition fun l => s.portalFails c kind (addr l) n
    let full (l : Nat) : Bool := replies && decide (4 ≤ ((s.ofLane c l).filter fun a =>
      match a.kind with | .atomic _ => true | .pacq => true | .ptry => true | _ => false).length)
    let make (t : State) (l : Nat) : Access := mk (t.newAccess c l f kind (addr l) n f.d (if replies then max 1 (n / 4) else 0)) l
    if ls.any (fun l => !s.laneMayIssue c (rel && !s.toHost c .atomic (addr l)) f.scope.toNat l || s.logBlocks (make s l) || full l) ||
        s.unitsFull (ls.filterMap fun l => s.requestAt c (addr l)) then .stall
    else
      let t := s.advance c
      let t := if holds then t.retry c ls else t
      let t := ls.foldl (fun t l =>
        let u := t.addAccess (make t l)
        if holds then u.onLane c.core c.gid l fun k => { k with wait := .reply t.nextId } else u) t
      let t := tx.foldl (fun t l => t.abortTx c.core c.gid l 3 id) t
      let t := t.enterTraps c.core c.gid (fun l => ⟨14, 2, c.pc, addr l, 0, none⟩) bad
      .done (if ls.isEmpty then t else t.notIdem c)

/-- ATOM (R323). -/
def execAtom (f : FM) (s : State) : Host.Outcome State Fault Refusal :=
  let n := sizeOf f.sz
  s.issue [dstData f.d n, src64 f.a, src32 f.b, srcData f.c n] fun s c =>
    let x := s.grp c
    s.issueRequests c f n (.atomic f.fn.toNat) true (decide (2 ≤ f.sem.toNat)) false fun a l =>
      { a with data := x.rdData f.c l n, data2 := x.rdData f.d l n }

/-- ATOMR (R323): no reply, no destination. -/
def execAtomr (f : FM) (s : State) : Host.Outcome State Fault Refusal :=
  let n := sizeOf f.sz
  s.issue [src64 f.a, src32 f.b, srcData f.c n] fun s c =>
    let x := s.grp c
    s.issueRequests c f n (.atomicR f.fn.toNat) false (decide (2 ≤ f.sem.toNat)) false fun a l =>
      { a with data := x.rdData f.c l n, dest := .none }

/-! ### Permits (R328 to R330) -/

/-- PACQ (R329): the lane stalls until the owner's first reply. -/
def execPacq (f : FM) (s : State) : Host.Outcome State Fault Refusal :=
  s.issue [dst32 f.d, src64 f.a, src32 f.b] fun s c =>
    s.issueRequests c f 8 .pacq true false true fun a _ => { a with regs := 1 }
/-- PTRY (R329). -/
def execPtry (f : FM) (s : State) : Host.Outcome State Fault Refusal :=
  s.issue [dst32 f.d, src64 f.a, src32 f.b] fun s c =>
    s.issueRequests c f 8 .ptry true false false fun a _ => { a with regs := 1 }
/-- PREL (R329): a release. -/
def execPrel (f : FM) (s : State) : Host.Outcome State Fault Refusal :=
  s.issue [src64 f.a, src32 f.b] fun s c =>
    s.issueRequests c f 8 .prel false true false fun a _ => { a with dest := .none }

/-- A permit as its service unit holds it: whether held, the holder's fid, and the waiters (R328). -/
structure Permit where
  held : Bool
  holder : Nat
  waiters : List Waiter
deriving DecidableEq, Repr

/-- A permit: its queue is the authority while it has waiters, else the word is. -/
def State.permitAt (s : State) (pa : Nat) : Permit :=
  match (s.cluster (s.unitOf pa)).permits.find? pa with
  | some (h, w :: ws) => ⟨true, h, w :: ws⟩
  | _ => let v := s.read pa 8; ⟨bit v 63, bits v 29 0, []⟩

/-- The word of a permit (R328). -/
def Permit.word (p : Permit) : Nat := p.held.toNat * 2 ^ 63 + p.waiters.length * 2 ^ 40 + p.holder

/-- A permit's queue stored at its service unit. -/
def State.setPermit (s : State) (pa : Nat) (p : Permit) : State :=
  s.onCluster (s.unitOf pa) fun k =>
    { k with permits := if p.waiters.isEmpty then k.permits.erase pa else k.permits.put pa (p.holder, p.waiters) }

/-- Waiters queued at a service unit. -/
def Cluster.waiters (k : Cluster) : Nat := k.permits.foldl (fun n e => n + e.2.2.length) 0

/-- A permit operation performed as an atomic that leaves a permit, with a result. -/
def State.permitOp (s : State) (a : Access) (p : Permit) (result : Nat) : State :=
  let t := (s.performAt a true true fun _ => p.word).setPermit a.pa p
  match t.access? a.id with
  | some b => t.setAccess { b with value := result }
  | none => t

/-- The fid of a waiter. -/
def State.waiterFid (s : State) : Waiter → Nat
  | .lane id => (s.access? id).elim 0 fun a => s.fid a.core a.gid a.lane
  | .peer fid => fid

/-- A waiter resumes as the holder: an acquire of the hand-over (R329). Another package's fibre is sent the result 0. -/
def State.handOver (s : State) (w : Waiter) (stamp : Nat) : State :=
  match w with
  | .peer _ => { s with outbox := some ⟨true, 0, false⟩ }
  | .lane id =>
    match s.access? id with
    | some a => s.setAccess { a with stage := .replying, value := 0, stamp := stamp, horizon := some stamp, queued := false }
    | none => s

/-- A lane that stalls on a PACQ waits for its turn; one that has gone on (R422) only has the register pending. -/
def Lane.waitsPermit (k : Lane) (id : Nat) : Lane :=
  if k.wait = .reply id ∨ k.wait = .permit id then { k with wait := .permit id } else k

/-- PACQ, PTRY and PREL at the owner (R329, R330). -/
def State.performPermit (s : State) (a : Access) : State :=
  let fid := s.fid a.core a.gid a.lane
  let p := s.permitAt a.pa
  match a.kind with
  | .prel =>
    if !p.held || p.holder != fid then
      (s.dropAccess a.id).addPending a.core a.gid a.lane ⟨14, 3, a.va, 0, none, none⟩
    else match p.waiters with
      | [] => s.permitOp a ⟨false, 0, []⟩ 0
      | m :: ms =>
        let t := s.permitOp a ⟨true, s.waiterFid m, ms⟩ 0
        t.handOver m (((t.access? a.id).map fun b => b.stamp).getD 0)
  | _ =>
    if p.held && p.holder == fid then s.permitOp a p 1
    else if !p.held then s.permitOp a ⟨true, fid, p.waiters⟩ 0
    else if a.kind = .ptry then s.permitOp a p 2
    else if 256 ≤ (s.cluster (s.unitOf a.pa)).waiters then
      (s.setAccess { a with stage := .ready, since := s.clk, away := true }).onLane a.core a.gid a.lane fun k => k.waitsPermit a.id
    else
      let t := s.permitOp a { p with waiters := p.waiters ++ [.lane a.id] } 0
      match t.access? a.id with
      | some b => (t.setAccess { b with stage := .ready, queued := true, away := false }).onLane a.core a.gid a.lane fun k => k.waitsPermit a.id
      | none => t

/-- A waiter removed from its queue as one permit operation (R330): the word rewritten, stamped and recorded. -/
def State.leaveQueue (s : State) (a : Access) : State :=
  let p := s.permitAt a.pa
  (s.permitOp a { p with waiters := p.waiters.filter fun w => w != .lane a.id } 0).dropAccess a.id

/-- An atomic or permit request performed by its service unit (R319, R323); on uncorrectable data it parks undone, so that it can be
performed anew (R422). -/
def State.performRequest (s : State) (a : Access) : State :=
  let a := s.withClocks a
  if s.failing a && !a.orphan then s.parkBad a 1 else
  let rmw (op : Nat) : State := s.performAt a true true fun old => (globalRmw op).apply (8 * a.size) old a.data a.data2
  match a.kind with
  | .atomic op => rmw op
  | .atomicR op => rmw op
  | .pacq => s.performPermit a
  | .ptry => s.performPermit a
  | .prel => s.performPermit a
  | _ => s

/-- A request to host memory completes, or fails and parks with the service trap PORTAL pending (R326, R343): where the host fails it, and
where no AtomicOp stands for it, which shows only here when its page came later. A lane that waited goes on, and what stalled with it. -/
def State.portalDone (s : State) (a : Access) (ok : Bool) : State :=
  if ok && s.portalOk a.kind a.size then s.performRequest a
  else ((s.park { a with set := 0 }).addPending a.core a.gid a.lane ⟨14, 2, a.va, 0, some a.id, none⟩).onLane a.core a.gid a.lane fun k =>
    if k.wait = .reply a.id ∨ k.wait = .permit a.id then { k with wait := .none, pc := nextPc k.pc } else k

/-! ### Transactions (R331 to R341) -/

/-- LIMIT of TXCFG (R338). -/
def Core.txLimit (k : Core) : Nat := max 1 (k.txcfg.toNat % 16)

/-- The abort target that TBEGIN encodes (R331). -/
def txTarget (f : FK) (pc : Pc) : Pc :=
  relTarget ⟨false, .none, .none, f.imm.extractLsb' 26 3, f.imm.extractLsb' 0 26⟩ pc

/-- TBEGIN for one lane (R331), which already stands at the next instruction; an S register takes the TSTATE of the lowest active lane
alone, whenever it comes (R62, log 70). -/
def State.beginTx (s : State) (c : Ctx) (f : FK) (l : Nat) : State :=
  let x := s.grp c
  let k := x.lane l
  let t := k.tx
  let enter (t : Tx) : State := s.onGrp c fun x => (x.put32 (c.destOf f.d l) l t.word).onLane l fun k => { k with tx := t }
  if t.active then
    if t.depth = 15 ∧ !t.irrev then s.abortTx c.core c.gid l 7 id
    else enter { t with depth := min 15 (t.depth + 1) }
  else
    let again := t.lastPc == some c.pc
    let t := { t with target := txTarget f c.pc, dest := c.destOf f.d l }
    if again ∧ (s.core c.core).txLimit ≤ t.count then
      let s := s.onGrp c fun x => x.onLane l fun k => { k with tx := t, wait := .fallback, pc := c.pc }
      s.onCluster (txCluster c.core) fun q => { q with fallbackWait := q.fallbackWait ++ [(k.c, c.core, c.gid, l)] }
    else
      enter { t with active := true, irrev := false, depth := 1, count := if again then t.count else 0, lastPc := some c.pc,
                     reads := [], writes := [], validating := none, faulted := false, since := s.clk }

/-- TBEGIN (R331). -/
def execTbegin (f : FK) (s : State) : Host.Outcome State Fault Refusal :=
  s.issueChecked [] [dst32 f.d] [] (fun c _ _ => txTarget f c.pc) fun s c =>
    .done (c.act.foldl (fun s l => s.beginTx c f l) (s.advance c))

/-- Whether a TBEGIN stops for its abort target (R69, R331). -/
def State.tbeginFails (s : State) (f : FK) : Bool := (s.ctx?.bind fun c => s.stopTransfer c fun _ => txTarget f c.pc).isSome

/-- Whether one waiter for a fallback permit comes before another: ascending stamp key (R296, R331). -/
def waitsBefore (a b : Nat × Nat × Nat × Nat) : Bool :=
  if a.1 = b.1 then
    decide (a.2.1 * 1024 + a.2.2.1 * 32 + a.2.2.2 < b.2.1 * 1024 + b.2.2.1 * 32 + b.2.2.2)
  else stampLt a.1 b.1

/-- The fallback permit of a cluster goes to the first waiter by stamp key: its run is irrevocable (R331, R337). -/
def State.grantFallback (s : State) (cl : Nat) : State :=
  let q := s.cluster cl
  match q.fallback, q.fallbackWait with
  | none, a :: r =>
    let (st, core, gid, l) := r.foldl (fun m b => if waitsBefore b m then b else m) a
    let s := s.onCluster cl fun q =>
      { q with fallback := some (s.fid core gid l), fallbackWait := q.fallbackWait.filter fun w => w != (st, core, gid, l) }
    s.onGroup core gid fun x =>
      let t := { (x.lane l).tx with active := true, irrev := true, depth := 1, locks := [], permit := some cl }
      (x.put32 t.dest l t.word).onLane l fun k =>
        { k.acquire? q.fallbackStamp with tx := t, wait := .none, pc := nextPc k.pc }
  | _, _ => s

/-- Whether a sector is irrevocably locked by another lane (R337). -/
def State.lockedByOther (s : State) (core gid l x : Nat) : Bool :=
  (s.awayLocks.any fun e => e.2 == x) || s.cores.any fun k => k.2.groups.any fun g =>
    (List.range 32).any fun i => !(k.1 == core && g.1 == gid && i == l) && (g.2.lane i).tx.locks.contains x

/-- Whether a transaction's read log holds what memory holds (R334, R335). -/
def State.validates (s : State) (t : Tx) : Bool := t.reads.all fun e => s.pread e.pa 32 == e.bytes

/-- The highest clock of some sectors, at least `c` (R295). -/
def State.clockOver (s : State) (c : Nat) (xs : List Nat) : Nat := xs.foldl (fun c x => stampMax c (s.metaOf x).clock) c

/-- A commit's sector written at its owner with its stamp (R318, R335). -/
def State.applySector (s : State) (hash st : Nat) (e : LogSector) : State :=
  let bit := 2 ^ (e.pa / 32 % 4)
  (((s.oneSlot e.pa 32).touchLine e.pa 0 bit bit false).pwrite e.pa 32 e.bytes e.mask).record e.pa 32 hash st false true fun _ => e.mask

/-- A lane's commit writes a sector; D is set in its page's leaf (R274). -/
def State.commitWrite (s : State) (core slot hash st : Nat) (e : LogSector) : State :=
  (match s.lookup core slot e.va with | .ok r => s.setDirty core r.1 e.va | .error _ => s).applySector hash st e

/-- The commit of a lane (R335): all of it at one stamp, or an abort with CONF. -/
def State.commit (s : State) (core gid l : Nat) : State :=
  let k := (s.group core gid).lane l
  let t := k.tx
  let xs := (t.reads ++ t.writes).map fun e => e.pa / 32
  if xs.any (s.lockedByOther core gid l) || !s.validates t then s.abortTx core gid l 2 id
  else
    let slot := (s.group core gid).slot
    let hash := hashOf (s.fid core gid l)
    let key : CkptKey := ⟨core, slot, gid, l, (s.group core gid).seqno, none⟩
    let st := match s.ckptEntry key with
      | some (st, _) => st
      | none => stampNext (s.clockOver k.c xs)
    let prior := s.clockOver (s.metaOf (xs.headD 0)).clock xs
    let h := t.reads.foldl (fun h e => stampMax h (s.metaOf (e.pa / 32)).w) k.h
    let s := t.writes.foldl (fun s e => s.commitWrite core slot hash st e) s
    let s := t.reads.foldl (fun s e => s.record e.pa 32 hash st true false fun _ => 2 ^ 32 - 1) s
    (s.ckptWrite key st prior).draw.onLane core gid l fun k =>
      { k with c := st, h := h,
               tx := { k.tx with active := false, depth := 0, count := 0, code := 0, reads := [], writes := [], validating := none } }

/-- Whether replay lets a lane commit (R433): the clock of its sectors is its entry's PRIOR. -/
def State.commitReady (s : State) (core gid l : Nat) : Bool :=
  let x := s.group core gid
  let t := (x.lane l).tx
  match s.ckptEntry ⟨core, x.slot, gid, l, x.seqno, none⟩ with
  | some (_, prior) =>
    let xs := (t.reads ++ t.writes).map fun e => e.pa / 32
    s.clockOver (s.metaOf (xs.headD 0)).clock xs == prior
  | none => true

/-- TEND for one lane. -/
def State.endTx (s : State) (core gid l : Nat) : State :=
  let t := ((s.group core gid).lane l).tx
  if !t.active then s
  else if 1 < t.depth then s.onLane core gid l fun k => { k with tx := { k.tx with depth := k.tx.depth - 1 } }
  else if t.irrev then s.endIrrev core gid l
  else s.commit core gid l

/-- Whether a lane's TEND ends its transaction or its irrevocable run, as a release (R299, R337). -/
def Lane.endsRun (k : Lane) : Bool := k.tx.active && k.tx.depth == 1

/-- The sectors that a lane's logs name. -/
def Lane.logged (k : Lane) : List LogSector := k.tx.reads ++ k.tx.writes

/-- The logged sector at which a commit fails to translate, and why (R270): it needs R and W of every page that it touches, and of
none that is replicated. -/
def State.commitFault (s : State) (core gid l : Nat) (mode : Mode) : Option (Nat × XFail) :=
  let x := s.group core gid
  (x.lane l).logged.findSome? fun e =>
    match s.translate core x.slot mode .atomic e.va with | .error f => some (e.va, f) | .ok _ => none

/-- Whether the commits of some lanes must wait: for the translation of a page (R267, R283), the slot of a line (R267), a unit's queue
(R319), what the portal has accepted before them (R303), or their turn in a replay (R433). -/
def State.commitWaits (s : State) (core gid : Nat) (mode : Mode) (ls : List Nat) : Bool :=
  let x := s.group core gid
  let es := ls.flatMap fun l => (x.lane l).logged
  let pas := es.filterMap fun e => (s.translate core x.slot mode .atomic e.va).toOption
  es.any (fun e => s.pageWaits core x.slot e.va) || pas.any (fun pa => s.slotFull pa 1 || s.portalBusy (dieOf core) pa) || s.unitsFull pas ||
    ls.any fun l => !s.commitReady core gid l

/-- A lane's logs name their sectors where their pages lie when it commits (R283). -/
def State.relocate (s : State) (core gid l : Nat) (mode : Mode) : State :=
  let slot := (s.group core gid).slot
  let mv (e : LogSector) : LogSector :=
    match s.translate core slot mode .atomic e.va with | .ok pa => { e with pa := pa / 32 * 32 } | .error _ => e
  s.onLane core gid l fun k => { k with tx := { k.tx with reads := k.tx.reads.map mv, writes := k.tx.writes.map mv } }

/-- The accesses of commits that fail to translate (R333): KIND 6, their lanes wait for the pager's answer, and what the TEND's mask
becomes when the last of them has aborted stands with each. -/
def State.commitFaults (s : State) (c : Ctx) (q k : Nat) (fs : List (Nat × Nat × XFail)) (aborted : Nat) : State :=
  let fm : FM := ⟨0, 0, 0, 0, 0, .none, .none, .none, .none, 0⟩
  s.txFaults (fs.map fun e =>
    ({ s.newAccess c e.1 fm (.commit q k (aborted ||| maskOf (fs.map fun e => e.1))) e.2.1 1 .none 0 with mask := 0, set := maskOf c.set }, e.2.2))

/-- A commit that CTXLD has brought back is made anew where its pages translate now (R333, R426); else it parks again. -/
def State.recommit (s : State) (a : Access) : State :=
  match a.kind with
  | .commit q m aborted =>
    if s.commitWaits a.core a.gid a.mode [a.lane] then s
    else match s.commitFault a.core a.gid a.lane a.mode with
      | some (va, f) => if (s.logFor a.core a.gid a.seqno).isNone then s else s.parkAll a.core a.gid a.seqno [({ a with va := va }, f)]
      | none =>
        let t := ((s.dropAccess a.id).relocate a.core a.gid a.lane a.mode).endTx a.core a.gid a.lane
        if ((t.group a.core a.gid).lane a.lane).tx.code = 2 then t.tendOver a
        else
          let kind (k : AccKind) : AccKind := match k with
            | .commit r n b => if r = q then .commit r n (clearBit b a.lane) else k
            | _ => k
          let t : State := { t with accesses := t.accesses.map fun (b : Access) => { b with kind := kind b.kind } }
          (t.onGroup a.core a.gid fun x => { x with idem := false }).tendOver { a with kind := .commit q m (clearBit aborted a.lane) }
  | _ => s

/-- TEND (R335, R337): a release of the lanes that it ends (R299). Where a commit fails to translate, every lane of its set stalls at it until
the last such commit has its outcome (R335). -/
def execTend (f : FK) (s : State) : Host.Outcome State Fault Refusal :=
  s.issueWith [f.mask] [] (fun _ _ => true) fun s c =>
    let x := s.grp c
    if c.act.isEmpty then .done (s.advance c)
    else if !s.mayRelease c.core c.gid 3 (c.act.filter fun l => (x.lane l).endsRun) then .stall
    else
      let commits := c.act.filter fun l => x.inTx l && (x.lane l).tx.depth == 1
      let faults := commits.filterMap fun l => (s.commitFault c.core c.gid l c.mode).map fun e => (l, e)
      if s.commitWaits c.core c.gid c.mode commits || (!faults.isEmpty && (s.logFor c.core c.gid x.seqno).isNone) then .stall
      else
        let fails (l : Nat) : Bool := faults.any fun e => e.1 == l
        let t := commits.foldl (fun s l => s.relocate c.core c.gid l c.mode) (s.advance c)
        let t := (c.act.filter fun l => !fails l).foldl (fun s l => s.endTx c.core c.gid l) t
        let y := t.grp c
        let t := if commits.any (fun l => !fails l && (y.lane l).tx.code == 0) then t.notIdem c else t
        let aborted := maskOf (commits.filter fun l => !fails l && (y.lane l).tx.code == 2)
        if !faults.isEmpty then
          let q := t.nextId
          let t := ({ t with nextId := q + 1 }.retry c (c.set.filter fun l => !aborted.testBit l)).onGrp c fun y =>
            y.onLanes (c.set.filter fun l => !fails l) fun _ k => { k with wait := .reply q }
          .done (t.commitFaults c q f.mask.val faults aborted)
        else match (t.onGrp c fun y => y.mset f.mask.val aborted).submitAll c.core c.gid with
          | some t => .done t
          | none => .stall

/-- TABORT for one lane (R339). -/
def State.tabort (s : State) (c : Ctx) (ucode l : Nat) : State :=
  let t := ((s.grp c).lane l).tx
  if !t.active then s
  else if t.irrev then
    (s.endIrrev c.core c.gid l).onLane c.core c.gid l fun k =>
      { k with pc := t.target, tx := { k.tx with code := 6, count := t.count } }
  else s.abortTx c.core c.gid l 6 fun t => { t with ucode := ucode }

/-- TABORT (R339). -/
def execTabort (f : FI) (s : State) : Host.Outcome State Fault Refusal :=
  s.issue [] fun s c =>
    let x := s.grp c
    if !s.mayRelease c.core c.gid 3 (c.act.filter fun l => (x.lane l).tx.active && (x.lane l).tx.irrev) then .stall
    else .done (c.act.foldl (fun s l => s.tabort c (f.imm.toNat % 256) l) (s.advance c))

/-- TSTATE (R340). -/
def execTstate (f : F3) (s : State) : Host.Outcome State Fault Refusal :=
  s.issueGroup [dst32 f.d] fun c x => x.wr c f.d false fun l => (x.lane l).tx.word

/-- TSTATE.CLR (R340). -/
def execTstateClr (f : F3) (s : State) : Host.Outcome State Fault Refusal :=
  s.issueGroup [dst32 f.d] fun c x =>
    (x.wr c f.d false fun l => (x.lane l).tx.word).onLanes c.act fun _ k =>
      { k with tx := { k.tx with count := 0, code := 0, ucode := 0, trapk := 0, deny := false, wide := false } }

/-- Whether a validation must wait for what the portal has accepted before it (R303). -/
def State.validateWaits (s : State) (core : Nat) (t : Tx) : Bool := t.reads.any fun e => s.portalBusy (dieOf core) e.pa

/-- The outcome of a validation in flight (R334): an abort with CONF where it fails. -/
def State.validateReply (s : State) (core gid l : Nat) : State :=
  let t := ((s.group core gid).lane l).tx
  if t.active && !t.irrev && t.validating.isSome && !s.validateWaits core t then
    if s.validates t then s.onLane core gid l fun k => { k with tx := { k.tx with validating := none } }
    else s.abortTx core gid l 2 id
  else s

/-- After every 65,536 clk since TBEGIN a validation starts (R334). -/
def State.validateTimer (s : State) (core gid l : Nat) : State :=
  s.onLane core gid l fun k =>
    if k.tx.active ∧ !k.tx.irrev ∧ k.tx.since + 65536 ≤ s.clk then
      { k with tx := { k.tx with validating := some true, since := k.tx.since + 65536 } }
    else k

end Sys2Proof.Machine
end

