-- ==== Sys2Proof/Machine/Fetch.lean ====
section
/-!
DEFINITION. How an instruction comes to issue: the choice of a group and a PC set (R79, R83, R85), the asynchronous events
of a lane (R412), fetch, the checks of R69 before the decoder, and pairs (R48 to R53, R275).
-/
namespace Sys2Proof.Machine

/-! ### Selection (R79, R83, R85) -/

/-- Whether a lane stands in a PC set that stalls until a parked lane of it has its answer (R386, R389). -/
def State.setStalls (s : State) (core gid l : Nat) : Bool :=
  s.accesses.any fun a => a.core == core && a.gid == gid && !a.orphan && a.set.testBit l

/-- Whether a group stalls until an instruction of it that has failed to translate finds an operand-log entry (R276). -/
def State.logStalls (s : State) (core gid : Nat) : Bool := s.accesses.any fun a => a.core == core && a.gid == gid && a.stallsGroup

/-- The lanes of a PC set that could issue now: none is held, and none owes a fault record (R82, R278, R429). -/
def State.issuable (s : State) (core : Nat) (x : Group) (t : List Nat) : List Nat :=
  if x.frozenSlot.isSome || x.frozenRegion.isSome || (s.core core).saves x.slot || s.logStalls core x.gid ||
      t.any (fun l => s.recordOwed core x.gid l || s.setStalls core x.gid l) then []
  else
    let ls := t.filter fun l => !x.held l
    if ls.any fun l => x.skip.testBit l then [] else ls

/-- The leader of a group's current set as select_set begins with it (R81, R83): the lowest lane of the old set, or of the next
runnable one. -/
def Group.atSelect (x : Group) : Group :=
  let cur := x.setOf x.current
  if cur.isEmpty || x.setWaits cur then
    match x.nextSet x.current with
    | some t => { x with current := t.headD 0, turn := 0 }
    | none => x
  else { x with current := cur.headD 0 }

/-- The lanes that select_set issues for a group (R83): of the current set, or of the first other runnable set after it; of those that
`can` admits. -/
def State.selectFrom (s : State) (core : Nat) (can : List Nat → Bool) (x : Group) : List Nat :=
  let x := x.atSelect
  let lanes (t : List Nat) : List Nat := let ls := s.issuable core x t; if can ls then ls else []
  let now := lanes (x.setOf x.current)
  if !now.isEmpty then now
  else
    let run := x.sets.filter fun t => !x.setWaits t && !t.contains x.current
    let (before, after) := run.partition fun t => decide (t.headD 0 < x.current)
    ((after ++ before).findSome? fun t => let ls := lanes t; if ls.isEmpty then none else some ls).getD []

/-- The lanes that select_set issues for a group if every function unit is free (R83, R132). -/
def State.selectSet (s : State) (core : Nat) (x : Group) : List Nat := s.selectFrom core (fun _ => true) x

/-- The group to prefer; where neither of two is better, the one with the lower GROUPID (log 66). -/
def pickGroup (better : Group → Group → Bool) : List Group → Option Group
  | [] => none
  | x :: r => some (r.foldl (fun b y => if better y b then y else b) x)

/-- Whether one group's last issue is older than another's; a group that never issued is the oldest, the older group on a tie. Of two
groups with equal creation stamps the model takes the one with the lower GROUPID (log 66). -/
def issuedBefore (a b : Group) : Bool :=
  match a.lastIssue, b.lastIssue with
  | none, none => decide (a.stamp < b.stamp)
  | none, some _ => true
  | some _, none => false
  | some i, some j => decide (i < j)

/-- The group a pipeline issues for, and the slot whose credit forced it (R85). Of two groups with equal creation stamps the model
takes the one with the lower GROUPID (log 66). -/
def Core.choose (k : Core) (pipe : Nat) (eligible : List Group) : Option (Group × Option Nat) :=
  let full (j : Nat) : Bool := k.credits.find? (4 * pipe + j) == some 64#7
  match [0, 1, 2, 3].find? (fun j => full j && eligible.any fun x => x.slot == j) with
  | some j => (pickGroup issuedBefore (eligible.filter fun x => x.slot == j)).map fun x => (x, some j)
  | none =>
    (pickGroup (fun a b => decide (k.prioOf b.slot < k.prioOf a.slot) ||
      (decide (k.prioOf a.slot = k.prioOf b.slot) && decide (a.stamp < b.stamp))) eligible).map fun x => (x, none)

/-- What a pipeline would issue (R83, R85): the group, the slot whose credit forced it, and the lanes; of the PC sets that `can`
admits. -/
def State.candidate (s : State) (core pipe : Nat) (can : Group → List Nat → Bool) : Option (Group × Option Nat × List Nat) :=
  let k := (s.core core).settleCredits s.clk
  let eligible := k.groups.filterMap fun g =>
    if g.2.pipe = pipe ∧ !(s.selectFrom core (can g.2) g.2).isEmpty then some g.2 else none
  (k.choose pipe eligible).map fun x => (x.1, x.2, s.selectFrom core (can x.1) x.1)

/-! ### Function units (R132) -/

/-- The 96 bits of a slot of a line's 64 bytes. -/
def slotWord (line slot : Nat) : Nat := line / 2 ^ (8 * (4 + 12 * slot)) % 2 ^ 96

/-- Whether the next instruction of some lanes of a group, or the one it is paired with, is of class FNU (R132). -/
def State.nextIsFnu (s : State) (core : Nat) (x : Group) (ls : List Nat) : Bool :=
  match ls with
  | [] => false
  | l :: _ =>
    let k := x.lane l
    match s.translate core x.slot k.mode .fetch (lineOf k.pc) with
    | .error _ => false
    | .ok pa =>
      let line := s.pread pa 64
      let slot := slotOf k.pc
      let fnu (j : Nat) : Bool := match unitClass (BitVec.ofNat 96 (slotWord line j)) with | some .fnu => true | _ => false
      fnu slot || (decide (slot < 4) && bit line (5 + slot) && fnu (slot + 1))

/-- The pipelines of a core that select in this clk: the one whose turn it is, and those whose ISSUE_SELECT follows in the same clk
(log 1). -/
def State.selecting (s : State) (core pipe : Nat) : List Nat :=
  pipe :: (s.sched.takeWhile fun t => t.after == 0).filterMap fun t =>
    match t.event with | .issueSelect => if t.args.unit = core then some t.args.item else none | _ => none

/-- The pipelines that were refused in the clk before this one (R132). -/
def Core.refusedBefore (k : Core) (now : Nat) : List Nat := if k.fuClk.map (fun t => t + 1) = some now then k.fuRefused else []

/-- The grants of a clk (R132): the pipelines refused in the clk before rank ahead, then those after the one granted last; two of the
requests are granted, and the others are refused. -/
def Core.grantUnits (k : Core) (now : Nat) (requests : List Nat) : Core :=
  let order := [1, 2, 3, 4].map fun i => (k.fuLast + i) % 4
  let (ahead, others) := order.partition (k.refusedBefore now).contains
  let ranked := (ahead ++ others).filter requests.contains
  { k with fuClk := some now, fuGranted := ranked.take 2, fuRefused := ranked.drop 2, fuLast := (ranked.take 2).getLast?.getD k.fuLast }

/-- FU_GRANT (R132): once in a clk, before its first selection on a core, the candidates of the pipelines that select are formed, and
those of class FNU request a unit. -/
def State.grantFus (s : State) (core pipe : Nat) : State :=
  if (s.core core).fuClk = some s.clk then s
  else
    let requests := (s.selecting core pipe).filter fun p =>
      (s.candidate core p fun _ _ => true).elim false fun x => s.nextIsFnu core x.1 x.2.2
    s.onCore core fun k => k.grantUnits s.clk requests

/-- The latch of a selection (R83, R85): the lanes that issue, the current set before the issue, and the credits that the issue leaves. -/
def State.latchFor (s : State) (core pipe : Nat) (x : Group) (forced : Option Nat) (ls : List Nat) : Issue :=
  let y := x.atSelect
  let grown := ((s.core core).settleCredits s.clk).credits
  { core := core, gid := x.gid, lanes := maskOf ls, pair := false, second := false, refetched := false,
    was := maskOf (y.setOf y.current), guard := ⟨false, 15⟩,
    credits := match forced with | some j => grown.put (4 * pipe + j) 0 | none => grown }

/-- Whether a set, put into the latch, finds itself unable to issue and leaves no effect: `run` is what a latched set does. -/
def State.wouldStall (run : State → Host.Outcome State Fault Refusal) (s : State) (core : Nat) (x : Group) (i : Issue) : Bool :=
  match run ({ s.setGroup core x.gid x.atSelect with cur := some i }) with
  | .next t => let k := (t.group core x.gid).skip; t.cur.isNone && k &&& i.lanes == i.lanes && !k.testBit 32
  | _ => false

/-- The PC sets that a pipeline would pick and that cannot issue in this clk are passed over (R83): for want of an operand, of a copy tag's
count or of a unit's room. -/
def State.foreseeFor (run : State → Host.Outcome State Fault Refusal) (s : State) (core pipe : Nat) (can : Group → List Nat → Bool) :
    Nat → State
  | 0 => s
  | n + 1 =>
    match s.candidate core pipe can with
    | none => s
    | some (x, forced, ls) =>
      if s.wouldStall run core x (s.latchFor core pipe x forced ls) then
        (s.onGroup core x.gid fun y => { y with skip := y.skip ||| maskOf ls }).foreseeFor run core pipe can n
      else s

/-- What an ISSUE_SELECT finds before it selects (R83, R132): on each pipeline that selects in this clk, sets that cannot issue are passed
over, those too that come up where it is refused a unit. -/
def State.foresee (run : State → Host.Outcome State Fault Refusal) (s : State) (core pipe : Nat) : State :=
  (s.selecting core pipe).foldl (fun s p =>
    let s := s.foreseeFor run core p (fun _ _ => true) 768
    s.foreseeFor run core p (fun x ls => !s.nextIsFnu core x ls) 768) s

/-- ISSUE_SELECT (R85, R132): the pipeline picks a group and a PC set; the set stands in the issue latch. With nothing to issue the clk
passes. A pipeline without a grant takes FNU instructions as unable to issue. -/
def execIssueSelect (s : State) : Host.Outcome State Fault Refusal :=
  let core := s.turn.unit
  let pipe := s.turn.item
  let s := s.grantFus core pipe
  let granted := (s.core core).fuGranted.contains pipe
  match s.candidate core pipe (fun x ls => granted || !s.nextIsFnu core x ls) with
  | none => .next s
  | some (x, forced, ls) => .next { s.setGroup core x.gid x.atSelect with cur := some (s.latchFor core pipe x forced ls) }

/-! ### Asynchronous events (R412, R430) -/

/-- The place of a pending event in the order of R412, after the dense-fallback trap (R388); kinds that neither lists come
after them (log 22). -/
def pendRank (kind : Nat) : Nat :=
  match kind with
  | 16 => 0 | 23 => 1 | 19 => 2 | 18 => 3 | 14 => 4 | 21 => 5 | 9 => 6 | _ => 7

/-- The pending event a lane takes first. -/
def Lane.firstPending (k : Lane) : Option Pending :=
  match k.pend with
  | [] => none
  | e :: r => some (r.foldl (fun b q => if pendRank q.kind < pendRank b.kind then q else b) e)

/-- A list without the first occurrence of an element. -/
def dropFirst {α : Type} [DecidableEq α] (a : α) : List α → List α
  | [] => []
  | b :: r => if b = a then r else b :: dropFirst a r

/-- A lane leaves the issue latch. -/
def State.unlatchLane (s : State) (core gid l : Nat) : State :=
  match s.cur with
  | some i =>
    if i.core = core ∧ i.gid = gid then
      if clearBit i.lanes l = 0 then s.unlatch else { s with cur := some { i with lanes := clearBit i.lanes l } }
    else s
  | none => s

/-- The lane that takes the stall-watch trap of a die (R430): the lowest live one of the first group in slot 0 of PC0. -/
def State.hangLane (s : State) (die : Nat) : Option (Nat × Nat) :=
  (s.core (640 + 2 * die)).groups.findSome? fun g =>
    if g.2.slot = 0 ∧ !g.2.live.isEmpty then some (g.1, g.2.live.headD 0) else none

/-- A held stall-watch trap that a lane can take (R430): it is the receiving lane and has room on its trap stack. -/
def State.hangFor (s : State) (core gid l : Nat) : Option (Nat × Nat) :=
  let d := dieOf core
  if 640 ≤ core ∧ core % 2 = 0 ∧ s.hangLane d = some (gid, l) ∧ ((s.group core gid).lane l).traps.length < 4 then
    (s.die d).hangs.head?
  else none

/-- A stall until a unit replies. -/
def Wait.isReply : Wait → Bool
  | .reply _ => true
  | _ => false

/-- ASYNC_EVENT_TAKE (R412): a lane takes one pending event, with the PC the event names or the lane's; a BUDGET is dropped outside
U mode, and a dense-fallback trap waits until the lane's instruction has its replies (R388). -/
def execAsyncEventTake (s : State) : Host.Outcome State Fault Refusal :=
  let core := s.turn.unit
  let gid := s.turn.item
  let l := s.turn.sub
  let k := (s.group core gid).lane l
  match k.firstPending with
  | some e =>
    let t := s.onLane core gid l fun k => { k with pend := dropFirst e k.pend }
    if e.kind = 16 ∧ k.wait.isReply then .next s
    else if e.kind = 21 ∧ k.mode ≠ .u then .next t
    else .next (((t.enterTrap core gid l ⟨e.kind, e.cause, e.pc.getD k.pc, e.tval, e.tinfo, e.access⟩).unlatchLane core gid l).clearSkip)
  | none =>
    match s.hangFor core gid l with
    | some (region, info) =>
      let s := s.onDie (dieOf core) fun d => { d with hangs := d.hangs.drop 1 }
      .next (((s.enterTrap core gid l ⟨24, 0, k.pc, region, info, none⟩).unlatchLane core gid l).clearSkip)
    | none => .next s

/-- The lane of the latched set that has an event to take before it issues (R412). -/
def State.asyncLane (s : State) (i : Issue) : Option Nat :=
  (lanesOf i.lanes).find? fun l =>
    !((s.group i.core i.gid).lane l).pend.isEmpty || (s.hangFor i.core i.gid l).isSome

/-! ### Fetch (R48 to R53, R275) -/

/-- LINE_REFETCH (R51, R52): the core drops its copy of the line, and the latch remembers that it did so once. -/
def execLineRefetch (s : State) : Host.Outcome State Fault Refusal :=
  .next { s with cur := s.cur.map fun i => { i with refetched := true } }

/-- The line word's must-be-zero fields (R49, R52). -/
def lineReserved (w : Nat) : Bool := bits w 31 26 != 0 || bits w 15 9 != 0

/-- Whether the number of ones among n bits of a number is odd. -/
def oddOnes (v : Nat) : Nat → Bool
  | 0 => false
  | n + 1 => xor (v.testBit n) (oddOnes v n)

/-- The parity of a slot of a line (R49, R51). -/
def parityOk (lineWord slot word : Nat) : Bool :=
  bit lineWord (16 + 2 * slot) == oddOnes word 48 && bit lineWord (17 + 2 * slot) == oddOnes (word / 2 ^ 48) 48

/-- What the fetch of the latched set's line gives: the state with the translation installed, and the line's address. -/
def State.fetch (s : State) (c : Ctx) : Except XFail (State × Nat) :=
  let va := lineOf c.pc
  match s.lookup c.core c.slot va with
  | .error f => .error f
  | .ok r =>
    match s.permit r.1 c.mode .fetch va (dieOf c.core) false with
    | .error f => .error f
    | .ok pa => if s.isMgmt pa then .error ⟨6, 0⟩ else .ok (s.install c.core c.slot va r, pa)

/-- A trap of a pre-execution check for some lanes of the set (R69, R409). -/
def State.checkTrap (s : State) (c : Ctx) (ls : List Nat) (kind tval : Nat) : State :=
  (s.enterTraps c.core c.gid (fun _ => ⟨kind, 0, c.pc, tval, 0, none⟩) ls).finish c

/-- Whether the pairing template of a slot fails (R53): both instructions need a class (log 23), of two kinds, the first
neither CTL nor PRV. -/
def templateFails (line slot : Nat) : Bool :=
  match unitClass (BitVec.ofNat 96 (slotWord line slot)), unitClass (BitVec.ofNat 96 (slotWord line (slot + 1))) with
  | some a, some b => a == b || a == .ctl || a == .prv
  | _, _ => true

/-- Whether the template fails as far as the first slot alone tells: where the parity of the second fails, it has no class (log 23). -/
def firstFails (line slot : Nat) : Bool :=
  match unitClass (BitVec.ofNat 96 (slotWord line slot)) with
  | some a => a == .ctl || a == .prv
  | none => false

/-- The lanes of a PC set that replay halts before they issue (R434). -/
def State.ckptHalted (s : State) (c : Ctx) : List Nat :=
  c.set.filter fun l => s.ckptHalts ⟨c.core, c.slot, c.gid, l, (s.grp c).seqno, none⟩

/-- The check of R50 at a fibre's first issue is over for the lanes of the set: sequential flow is never checked. -/
def State.started (s : State) (c : Ctx) : State := s.onGrp c fun x => x.onLanes c.set fun _ k => { k with startCheck := false }

/-- What the fetch and the checks of R69 before execution make of the latched set: a state in which the set is done with,
or one in which an instruction or LINE_REFETCH runs. -/
inductive Front
  | finished (s : State)
  | refetch (s : State)
  | take (s : State) (lane : Nat)
  | run (s : State) (i : Instr)
deriving Repr

/-- Whether checks 1 and 4 of R69 fail for the target of a transfer, which then takes their trap and not that of the pairing template
(check 5). -/
def State.targetFails (s : State) (i : Instr) : Bool :=
  match i with
  | .bra f => s.branchFails f
  | .brx f => s.branchFails f
  | .call f => s.branchFails f
  | .ret f => s.branchFails f
  | .tbegin f => s.tbeginFails f
  | _ => false

/-- The front of the pipeline for the latched set: checks 1 to 6 of R69 in order. A slot is decoded with the slot that it is paired
with, whose class the template needs, so the parity of both is checked (R51, R53); where only that of the second fails, the first issues
alone, and the machine check is the second's own when it issues in its turn, with its PC (log 23). A line whose translation is being
invalidated, or must be walked and finds no request slot, is fetched after that (R267, R283). A word that fails check 6 is no transfer, so that it has no target to check (log 21). -/
def State.front (s : State) (i : Issue) : Front :=
  match s.asyncLane i with
  | some l => .take { s with turn := { EventArgs.zero with unit := i.core, item := i.gid, sub := l } } l
  | none =>
    match s.ctx? with
    | none => .finished s.unlatch
    | some c =>
      let stop := s.ckptHalted c
      if !stop.isEmpty then
        .finished (s.onGrp c fun x => x.onLanes stop fun _ k => { k with halted := some .ckptstop }).unlatch.clearSkip
      else if !pcLegal c.pc then .finished (s.checkTrap c c.set 1 c.pc.toNat)
      else if s.pageWaits c.core c.slot (lineOf c.pc) then .finished (s.skipSet c)
      else match s.fetch c with
        | .error f => .finished (s.fetchFault c c.pc.toNat c.set f)
        | .ok (s, pa) =>
          let line := s.pread pa 64
          let w := line % 2 ^ 32
          let slot := slotOf c.pc
          let paired := !i.second && decide (slot < 4) && bit w (5 + slot)
          let parity := parityOk w slot (slotWord line slot) && !s.poisoned pa 64
          let both := !paired || parityOk w (slot + 1) (slotWord line (slot + 1))
          if (lineReserved w || !parity || !both) && !i.refetched then .refetch s
          else if lineReserved w then .finished (s.checkTrap c c.set 2 w)
          else if !parity then .finished (s.checkTrap c c.set 23 0)
          else
            let bad := c.set.filter fun l => ((s.grp c).lane l).startCheck && !bit w slot
            if !bad.isEmpty then .finished (s.checkTrap c bad 3 c.pc.toNat)
            else
              let illegal := paired && (if both then templateFails line slot else firstFails line slot)
              match decode (BitVec.ofNat 96 (slotWord line slot)) with
                | .error _ => .finished (s.checkTrap c c.set (if illegal then 4 else 5) 0)
                | .ok (g, ins) =>
                  let t := { s.started c with cur := some { i with pair := paired && both, guard := g } }
                  if illegal && !t.targetFails ins then .finished (s.checkTrap c c.set 4 0) else .run t ins

/-! ### What stands around an instruction and an event (R83, R283) -/

/-- Whether lanes of a group would enter a trap through a page whose translation must wait (R267, R283): the page of the vector that they
would go to, or of one of the vectors that they would not find. -/
def State.entryWaits (s t : State) (core gid : Nat) : Bool :=
  let x := s.group core gid
  let y := t.group core gid
  let k := s.core core
  y.live.any fun l =>
    let a := x.lane l
    let b := y.lane l
    (decide (a.traps.length < b.traps.length) && s.pageWaits core x.slot (lineOf b.pc)) ||
    (a.halted.isNone && b.halted == some .vector &&
      (s.pageWaits core x.slot ((k.svec[x.slot]?).getD 0).toNat || s.pageWaits core x.slot k.hvec.toNat))

/-- What a latched set has done stands, unless it enters a trap through a page whose translation must wait: then the set stalls where it
was (R283). -/
def State.heldEntry (s : State) (i : Issue) : Host.Outcome State Fault Refusal → Host.Outcome State Fault Refusal
  | .next t =>
    if s.entryWaits t i.core i.gid then .next (s.onGroup i.core i.gid fun x => { x with skip := x.skip ||| i.lanes }).unlatch else .next t
  | o => o

/-- The state in which an event finds the machine: an ISSUE_SELECT passes over the sets that could not issue (R83, R132); `run` is what a
latched set does. -/
def State.beforeEvent (run : State → Host.Outcome State Fault Refusal) (s : State) (e : Instr) : State :=
  match e with
  | .issueSelect => s.foresee run s.turn.unit s.turn.item
  | _ => s

/-! ### A word placed where the next step fetches (log 3) -/

/-- The line word of a line whose slot 0 holds a word and whose other slots are zero: every slot is a legal target, none pairs. -/
def lineWordOf (word : Nat) : Nat :=
  0x1F + (oddOnes word 48).toNat * 2 ^ 16 + (oddOnes (word / 2 ^ 48) 48).toNat * 2 ^ 17

/-- The virtual address of the line that holds a placed word. -/
def placedLine : Nat := 0x10000

/-- A group of 32 U-mode lanes that stand at a placed word, with a full window. -/
def placedGroup : Group :=
  { Group.empty with
    window := List.range 20,
    lanes := List.replicate 32 { Lane.empty with live := true, pc := BitVec.ofNat 53 (placedLine + 4) } }

/-- The state in which a word stands in slot 0 of a line in memory, a group of core 0 stands at it, its page is translated, and
the group's one PC set is the one that issues. -/
def State.placeWord (s : State) (word : Nat) : State :=
  let pa := s.pkg * 2 ^ 41 + placedLine
  let (pt, vm) := (s.core 0).roots 0
  let e : TlbEntry :=
    { asid := bits pt 11 0, vmid := bits vm 11 0, va := 0, size := 33, pa := s.pkg * 2 ^ 41, ipa := s.pkg * 2 ^ 41, rights1 := 7,
      rights2 := 7, u := true, repl := false, fold := false, leaf := 2, leafPa := s.pkg * 2 ^ 41 + 0x2000, step := 33, leafPa2 := none, step2 := 0,
      dirty := 1, dirty2 := 0 }
  let s := { s with mem := putBytes s.mem pa 64 (lineWordOf word + word % 2 ^ 96 * 2 ^ 32),
                    poison := s.poison.filter fun x => !(sectorsOf pa 64).contains x }
  let s := s.onCore 0 fun k => { k with tlb := e :: k.tlb, groups := k.groups.put 0 placedGroup }
  let i : Issue :=
    { core := 0, gid := 0, lanes := 2 ^ 32 - 1, pair := false, second := false, refetched := false, was := 2 ^ 32 - 1,
      guard := ⟨false, 15⟩, credits := ((s.core 0).settleCredits s.clk).credits }
  { s with cur := some i }

end Sys2Proof.Machine
end

