-- ==== Sys2Proof/Machine/Agent.lean ====
section
/-!
DEFINITION. Accesses to global memory by units that are not lanes: copy engines, the KV block engine, the decode services and
the Ridgeline (R295, R307, R313, R365). Shared operations; and PGHINT's pins, which are atomics at the leaf's service unit (R290).
-/
namespace Sys2Proof.Machine

/-- A unit that accesses memory: its die, roots and mode, whether its addresses are physical, whose fibre hash it records
(none where R307 records nothing), and its reuse-distance hint. -/
structure Agent where
  die : Nat
  pt : Nat
  vm : Nat
  mode : Mode
  phys : Bool
  hash : Option Nat
  rd : Nat
  /-- A unit to which the on-chip map is open: a copy engine, CTXSV and CTXLD (R168). -/
  map : Bool
  /-- It works for the current pass over its pages: it goes on through a translation that is being invalidated (R283). -/
  current : Bool
  /-- Core, group and lane of the irrevocable run that it works for, which locks the sectors it reads and writes (R337). -/
  run : Option (Nat × Nat × Nat)
  /-- A port of the package: what the host or a peer asks is performed when it comes, whatever slots are held. -/
  port : Bool
  /-- By what the checkpoint log knows its accesses, but for their addresses (R432); none for a unit that works for no fibre. -/
  log : Option CkptKey
  /-- Its accesses are acquires, releases or atomics, each of which is logged (R432). -/
  orders : Bool
deriving DecidableEq, Repr

/-- Why an access of an agent is not made: a translation failure at an address, a refused physical address, uncorrectable data in a
sector (R444), or that it must wait: for an accumulator tile that is busy (R168), an invalidation of its page (R283), a request slot
(R267), or accesses that its portal has accepted before it (R303). -/
inductive AgentFail
  | xlate (f : XFail) (va : Nat)
  | addr
  | busy
  | uncorr (pa : Nat)
deriving DecidableEq, Repr

/-- The result of an access: the state, the bytes, the clock after it, the highest W read, if a write was read, and the bytes that
were uncorrectable. -/
structure AgentOut where
  s : State
  value : Nat
  c : Nat
  w : Option Nat
  bad : Nat

/-- The higher of a stamp and one that there may be none of. -/
def stampWith (a b : Option Nat) : Option Nat := stampOf? (a.toList ++ b.toList)

/-- The agent that works for a lane of a core. -/
def State.agentFor (s : State) (core gid lane slot : Nat) (mode : Mode) : Agent :=
  let (pt, vm) := (s.core core).roots slot
  { die := dieOf core, pt := pt, vm := vm, mode := mode, phys := false, hash := some (hashOf (s.fid core gid lane)), rd := 0, map := false,
    current := false, run := if ((s.group core gid).lane lane).tx.irrev then some (core, gid, lane) else none, port := false,
    log := some ⟨core, slot, gid, lane, (s.group core gid).seqno, none⟩, orders := false }

/-- The agent with its accesses known by an instruction's SEQNO (R277). -/
def Agent.forSeqno (g : Agent) (n : Nat) : Agent := { g with log := g.log.map fun k => { k with seqno := n } }

/-- A unit of the die that works for no lane, in S mode and the space of some roots: its accesses are not recorded (R307). -/
def unitAgent (die pt vm : Nat) : Agent :=
  { die := die, pt := pt, vm := vm, mode := .s, phys := false, hash := none, rd := 0, map := false, current := false, run := none,
    port := false, log := none, orders := false }

/-- Whether the physical space is closed to an agent at an address that it names itself (R167, R168, R262, R351). -/
def State.refuses (s : State) (g : Agent) (pa n : Nat) : Bool :=
  !s.backed pa || s.isMgmt pa || (s.isOnChip pa && (!g.map || !s.mapNames pa n))

/-- Whether one SEQNO is earlier than another: they count modulo 2^32 (R277). -/
def seqBefore (a b : Nat) : Bool := let d := (b + 2 ^ 32 - a) % 2 ^ 32; d != 0 && decide (d < 2 ^ 31)

/-- Whether an access of a unit that works for a lane must wait for an earlier one of the lane to the same bytes (R300). -/
def State.ownBefore (s : State) (g : Agent) (writes : Bool) (pa n : Nat) : Bool :=
  g.log.any fun k => s.accesses.any fun b =>
    b.core == k.core && b.gid == k.gid && b.lane == k.lane && !b.orphan && b.plainLane && b.pending && seqBefore b.seqno k.seqno &&
      (writes || b.writes) && (s.located b).any fun b => rangesMeet b.pa b.size pa n

/-- Whether an access of a unit must wait at a physical address: for a slot of its line's channel (R267), for accesses of the die that
its portal has accepted before it (R303), or for those of its own lane (R300). -/
def State.mustWait (s : State) (g : Agent) (need : Need) (pa n : Nat) : Bool :=
  !g.port && (s.slotFull pa n || s.portalBusy g.die pa || s.ownBefore g (need != .load) pa n)

/-- Where an agent's access of n bytes goes: the physical address, and whether it stands for every replica (R284). -/
def State.agentAddr (s : State) (g : Agent) (need : Need) (va n : Nat) : Except AgentFail (State × Nat × Bool) :=
  if g.phys then
    let pa := va % 2 ^ 52
    if s.refuses g pa n then .error .addr else if s.mustWait g need pa n then .error .busy else .ok (s.oneSlot pa n, pa, false)
  else if !g.current && s.invalAt g.pt g.vm (va % 2 ^ 53) then .error .busy
  else
    let va := va % 2 ^ 53
    let asid := bits g.pt 11 0
    let vmid := bits g.vm 11 0
    let found : Except XFail (TlbEntry × Bool) :=
      match (s.die g.die).ltlb.find? (fun e => e.covers asid vmid va) with
      | some e => .ok (e, true)
      | none => (s.walkBoth g.pt g.vm va).map fun e => (e, false)
    match found with
    | .error f => .error (.xlate f va)
    | .ok (e, held) =>
      if !held && (s.walkLines g.pt g.vm va).any fun p => s.slotFull p 8 then .error .busy
      else match s.permit e g.mode need va g.die g.map with
      | .error f => .error (.xlate f va)
      | .ok pa =>
        if (s.isOnChip pa && !s.mapNames pa n) || (s.isMgmt pa && !mgmtAccessOk pa n) then .error (.xlate ⟨6, 0⟩ va)
        else if s.mustWait g need pa n then .error .busy
        else
          let s := if held then s else s.installDie g.die g.pt g.vm va e
          let s := if need = .load then s else s.setDirtyDie g.die e va
          .ok (s.oneSlot pa n, pa, e.repl && decide (need ≠ .load))

/-- n bytes cut at the 32-byte sectors: addresses and sizes. -/
def sectorPieces : Nat → Nat → Nat → List (Nat × Nat)
  | 0, _, _ => []
  | fuel + 1, a, n => if n = 0 then [] else let k := min n (32 - a % 32); (a, k) :: sectorPieces fuel (a + k) (n - k)

/-- The entry of the checkpoint log for an agent's access at an address, in replay mode (R433). -/
def State.agentEntry (s : State) (g : Agent) (va : Nat) : Option (Nat × Nat) := g.log.bind fun k => s.ckptEntry { k with va := some va }

/-- Whether replay keeps an agent's access back (R433). -/
def State.agentHeld (s : State) (g : Agent) (va pa n : Nat) : Bool :=
  (s.agentEntry g va).any fun e => s.stamped pa && s.clockAt pa n != e.2

/-- The stamp of an agent's access to a sector (R295): in replay mode its entry's (R433). -/
def State.agentStamp (s : State) (g : Agent) (c va pa : Nat) : Nat :=
  if !s.stamped pa then c
  else match s.agentEntry g va with
    | some (st, _) => st
    | none => stampNext (stampMax c (s.metaOf (pa / 32)).clock)

/-- An agent's access logged, if record mode logs it (R432); `before` is the state before it. -/
def State.agentLog (s before : State) (g : Agent) (va pa n st : Nat) : State :=
  match g.log with
  | none => s
  | some k =>
    if before.stamped pa && (g.orders || before.ckptForeign (g.hash.getD 0) pa n) then
      s.ckptWrite { k with va := some va } st (before.clockAt pa n)
    else s

/-- The sectors of an access of an agent locked for the irrevocable run that it works for (R337). -/
def State.agentLock (s : State) (g : Agent) (pa n : Nat) : State := g.run.elim s fun r => s.lockFor r.1 r.2.1 r.2.2 pa n

/-- An access recorded for an agent (R307). -/
def State.agentRecord (s : State) (g : Agent) (pa n st : Nat) (reads writes : Bool) : State :=
  match g.hash with
  | none => s
  | some h =>
    if !s.stamped pa then s
    else s.record pa n h st reads writes fun x => maskOf ((List.range 32).filter fun i => decide (pa ≤ 32 * x + i) && decide (32 * x + i < pa + n))

/-- An agent's read of the pieces of a range; an uncorrectable piece reads as zero, of the on-chip map too. -/
def State.agentGetPieces (s : State) (g : Agent) (c : Nat) : List (Nat × Nat) → Except AgentFail AgentOut
  | [] => .ok ⟨s, 0, c, none, 0⟩
  | (a, n) :: rest =>
    match s.agentAddr g .load a n with
    | .error f => .error f
    | .ok (s, pa, _) =>
      if s.agentHeld g a pa n then .error .busy else
      let bad := s.spoiled pa n
      let v := if bad then 0 else s.pread pa n
      let w := if s.stamped pa then some (s.metaOf (pa / 32)).w else none
      let st := if g.hash.isSome then s.agentStamp g c a pa else c
      let before := s
      let s := ((s.touchLine pa g.rd (lineSectors pa n) 0 false).agentRecord g pa n st true false).agentLog before g a pa n st |>.agentLock g pa n
      match s.agentGetPieces g st rest with
      | .error f => .error f
      | .ok o => .ok { o with value := v + 2 ^ (8 * n) * o.value, w := stampWith w o.w, bad := (if bad then 2 ^ n - 1 else 0) + 2 ^ n * o.bad }

/-- n bytes read by an agent. -/
def State.agentGet (s : State) (g : Agent) (c va n : Nat) : Except AgentFail AgentOut :=
  s.agentGetPieces g c (sectorPieces n va n)

/-- The sectors of a read that are uncorrectable. -/
def State.badSectors (s : State) (g : Agent) (va n : Nat) : List Nat :=
  (sectorPieces n va n).filterMap fun p =>
    match s.agentAddr g .load p.1 p.2 with
    | .ok (s, pa, _) => if s.spoiled pa p.2 then some (pa / 32 * 32) else none
    | .error _ => none

/-- n bytes read by an agent that acts on them (R444): uncorrectable ones stop it. -/
def State.agentGetSure (s : State) (g : Agent) (c va n : Nat) : Except AgentFail AgentOut :=
  match s.agentGet g c va n with
  | .error f => .error f
  | .ok o => if o.bad ≠ 0 then .error (.uncorr ((s.badSectors g va n).headD 0)) else .ok o

/-- UNCORR pending for a lane that met uncorrectable data in an access of its instruction, where it stands to issue again (R412, R422). -/
def State.uncorrAgain (s : State) (core gid l : Nat) (pc : Pc) (pa mask : Nat) : State :=
  (s.addPending core gid l ⟨19, 1, pa, mask, none, none⟩).onLane core gid l fun k => { k with pc := pc, wait := .none }

/-- An agent's write at one physical place. -/
def State.agentPutAt (s : State) (g : Agent) (st pa n v : Nat) : State :=
  ((s.touchLine pa g.rd (lineSectors pa n) (lineSectors pa n) false).pwrite pa n v (2 ^ n - 1)).agentRecord g pa n st false true |>.agentLock g pa n

/-- The stamp of an agent's access to several places at once (R315): the highest that one of them needs; in replay mode its entry's. -/
def State.stampAll (s : State) (g : Agent) (c va : Nat) (pas : List Nat) : Nat :=
  ((s.agentEntry g va).map fun e => e.1).getD (pas.foldl (fun m p => stampMax m (s.agentStamp g c va p)) c)

/-- An agent's write of the pieces of a range: the state and the clock after it. -/
def State.agentPutPieces (s : State) (g : Agent) (c v : Nat) : List (Nat × Nat) → Except AgentFail (State × Nat)
  | [] => .ok (s, c)
  | (a, n) :: rest =>
    match s.agentAddr g .store a n with
    | .error f => .error f
    | .ok (s, pa, repl) =>
      if (s.isOnChip pa && s.mapBusy pa n) || s.agentHeld g a pa n then .error .busy
      else
        let pas := if repl then [0, 1, 2, 3].map (replicaOf pa) else [pa]
        let st := if g.hash.isSome then s.stampAll g c a pas else c
        let s := (pas.foldl (fun s p => s.agentPutAt g st p n (v % 2 ^ (8 * n))) s).agentLog s g a pa n st
        s.agentPutPieces g st (v / 2 ^ (8 * n)) rest

/-- n bytes written by an agent. -/
def State.agentPut (s : State) (g : Agent) (c va n v : Nat) : Except AgentFail (State × Nat) :=
  s.agentPutPieces g c v (sectorPieces n va n)

/-- The fault record of an engine for an address, in a request of the group's instruction `seqno` (R277, R354, R365): KIND 5, no log
entry. -/
def State.engineFault (s : State) (g : Agent) (core gid lane slot seqno : Nat) (va : Nat) (f : XFail) : FaultRec :=
  let x := s.group core gid
  { va := va, pc := 0, seqno := seqno, rowid := x.rowid (dieOf core) lane, lanes := 2 ^ lane, core := core, lane := lane, kind := 5,
    stamp := (x.lane lane).c, asid := bits g.pt 11 0, vmid := bits g.vm 11 0, cause := f.cause,
    slotByte := slot * 64 + (if g.mode = .u then 0 else 32) + gid, log := 0xFFFF, ipa := f.ipa, gid := gid, setLanes := 0 }

/-- Whether a lane's relaxed read of n bytes for its instruction must wait for its earlier accesses (R300). -/
def State.ownWaits (s : State) (c : Ctx) (l va n : Nat) : Bool :=
  let fm : FM := ⟨0, 0, 0, 0, 0, .none, .none, .none, .none, 0⟩
  let a := s.newAccess c l fm (.load false) va n .none 0
  !s.laneMayIssue c false 0 l || (s.ofLane c l).any fun b => b.pending && b.writes && s.meets b a

/-! ### PGHINT.PIN and PGHINT.UNPIN (R290) -/

/-- The PINS byte of a leaf replaced by the atomic add of a lane at the leaf's service unit (R290, R318), for the page at `va`: stamped and
recorded, relaxed. None where it must wait: for a slot, for its place in the unit's queue, for the portal, or in a replay. -/
def State.pinLeaf (s : State) (c : Ctx) (l va pa new : Nat) : Option State :=
  let g := { s.agentFor c.core c.gid l c.slot c.mode with orders := true }
  let k := (s.grp c).lane l
  if s.mustWait g .atomic pa 1 || s.unitsFull [pa] || s.agentHeld g va pa 1 then none
  else
    let st := s.agentStamp g k.c va pa
    let w := (s.metaOf (pa / 32)).w
    let bit := lineSectors pa 1
    let t := ((((s.oneSlot pa 1).touchLine pa 0 bit bit false).write pa 1 new).agentRecord g pa 1 st true true).agentLog s g va pa 1 st
    some ((t.agentLock g pa 1).onLane c.core c.gid l fun k => { k with c := stampMax k.c st, p := stampMax k.p w })

/-- Pages pinned one by one until one cannot be (R290): the state, and how many. -/
def State.pinPages (s : State) (c : Ctx) (l va : Nat) : Nat → Option (State × Nat)
  | 0 => some (s, 0)
  | n + 1 =>
    match s.lookup c.core c.slot va with
    | .error _ => some (s, 0)
    | .ok (e, _, _) =>
      let pa := e.leafAt va + 7
      let pins := s.read pa 1
      if (lacks e.rights1 .load).isSome || pins == 255 then some (s, 0)
      else (s.pinLeaf c l va pa (pins + 1)).bind fun s => (s.pinPages c l (va + 8192) n).map fun r => (r.1, r.2 + 1)

/-- Pages unpinned where they are present and pinned (R290). -/
def State.unpinPages (s : State) (c : Ctx) (l va : Nat) : Nat → Option (State × Nat)
  | 0 => some (s, 0)
  | n + 1 =>
    let one : Option (State × Nat) := match s.lookup c.core c.slot va with
      | .error _ => some (s, 0)
      | .ok (e, _, _) =>
        let pa := e.leafAt va + 7
        let pins := s.read pa 1
        if pins = 0 then some (s, 0) else (s.pinLeaf c l va pa (pins - 1)).map fun s => (s, 1)
    one.bind fun r => (r.1.unpinPages c l (va + 8192) n).map fun q => (q.1, q.2 + r.2)

/-- PGHINT.PIN (R290). -/
def execPghintPin (f : FM) (s : State) : Host.Outcome State Fault Refusal :=
  s.pghint f notUser fun s c l => s.pinPages c l (fmAddr f (s.grp c) l) (hintPages f (s.grp c) l)
/-- PGHINT.UNPIN (R290). -/
def execPghintUnpin (f : FM) (s : State) : Host.Outcome State Fault Refusal :=
  s.pghint f notUser fun s c l => s.unpinPages c l (fmAddr f (s.grp c) l) (hintPages f (s.grp c) l)

end Sys2Proof.Machine
end

