-- ==== Sys2Proof/Machine/MemEvents.lean ====
section
/-!
DEFINITION. The events of spec/95 that carry accesses, requests, fills, barriers and the matrix array forward. An event that
is not enabled changes nothing.
-/
namespace Sys2Proof.Machine

/-- An event's next state: every group may be looked at again (log 1). -/
def happened (s : State) : Host.Outcome State Fault Refusal := .next s.clearSkip

/-- An event about one access. -/
def State.withAccess (s : State) (ok : Access → Bool) (f : Access → State) : Host.Outcome State Fault Refusal :=
  match s.access? s.turn.unit with
  | some a => if ok a then happened (f a) else .next s
  | none => .next s

/-! ### Naps and barriers (R92, R103) -/

/-- NAP_EXPIRY (R103). -/
def execNapExpiry (s : State) : Host.Outcome State Fault Refusal :=
  let core := s.turn.unit
  let gid := s.turn.item
  match ((s.group core gid).lane s.turn.sub).wait with
  | .nap u =>
    if u ≤ s.clk then happened (s.onLane core gid s.turn.sub fun k => { k with wait := .none, pc := nextPc k.pc }) else .next s
  | _ => .next s

/-- Whether a lane waits at a merge whose phase is over. -/
def Lane.passesCred (k : Lane) (id phase : Nat) : Bool :=
  match k.wait with | .cred i _ p _ _ _ _ _ => i == id && p != phase | _ => false

/-- BARRIER_RELEASE (R92): the lanes that wait in a phase that is over go on, as an acquire of every arrival. -/
def execBarrierRelease (s : State) : Host.Outcome State Fault Refusal :=
  let unit := s.turn.unit
  if s.turn.flag then
    let id := s.turn.sub
    match (s.cluster unit).kbar.find? id with
    | none => .next s
    | some b =>
      let past (l : Lane) : Bool := l.passesKbar id b.phase || l.passesCred id b.phase
      let release (k : Nat × Core) : Nat × Core :=
        if clusterOf k.1 = some unit then (k.1, k.2.mapGroups fun x => x.passBarrier past b.passed) else k
      happened { s with cores := s.cores.map release }
  else
    match (s.core unit).cbar.find? (16 * s.turn.item + s.turn.sub) with
    | none => .next s
    | some b =>
      happened (s.onCore unit fun k => k.mapGroups fun x =>
        if x.slot = s.turn.item then x.passBarrier (fun l => l.passesCbar s.turn.sub b.phase) b.passed else x)

/-! ### Scratchpad and the array (R175 to R200) -/

/-- SFILL_COMPLETE (R175). -/
def execSfillComplete (s : State) : Host.Outcome State Fault Refusal :=
  match (s.core s.turn.unit).fills.find? (fun q => q.id == s.turn.item) with
  | some q => happened (s.onCore s.turn.unit fun k => k.completeFill q)
  | none => .next s

/-- The units of a slot under a value of SPMAP (R157). -/
def spmapUnits (v : Nat) (slot : Nat) : List Nat :=
  (List.range (bits v (16 * slot + 14) (16 * slot + 8))).map fun i => bits v (16 * slot + 6) (16 * slot) + i

/-- SPMAP_WRITE (R158): units newly placed in a partition are zeroed, then the write completes. -/
def execSpmapWrite (s : State) : Host.Outcome State Fault Refusal :=
  let k := s.core s.turn.unit
  match k.spmapNew with
  | none => .next s
  | some (v, gid, id) =>
    let fresh := [0, 1, 2, 3].flatMap fun j =>
      (spmapUnits v.toNat j).filter fun u => !(spmapUnits k.spmap.toNat j).contains u
    let spad := fresh.foldl (fun m u => dropRange m (4096 * u) 4096) k.spad
    let bad := k.badSpad.filter fun b => !fresh.contains (b / 4096)
    let hidden := fresh.foldl (fun m u => dropRange m (4096 * u) 4096) k.hidden
    happened (s.setCore s.turn.unit
      ({ k with spmap := v, spmapNew := none, spad := spad, badSpad := bad, hidden := hidden }.wakeReply gid id))

/-- OWNt of ACCOWN (R164). -/
def ownOf (v t : Nat) : Nat := bits v (2 * t + 1) (2 * t)

/-- ACCOWN_WRITE (R164): tiles that change hands are waited for and zeroed, then the write completes. -/
def execAccownWrite (s : State) : Host.Outcome State Fault Refusal :=
  let k := s.core s.turn.unit
  match k.accownNew with
  | none => .next s
  | some (v, gid, id) =>
    let moved := [0, 1, 2, 3].filter fun t => ownOf v.toNat t != ownOf k.accown.toNat t
    if moved.any k.accBusy then .next s
    else
      let k := moved.foldl (fun k t => k.accZeroRows t 0 64) k
      happened (s.setCore s.turn.unit ({ k with accown := v, accownNew := none }.wakeReply gid id))

/-- BANK_READY (R178, R199). -/
def execBankReady (s : State) : Host.Outcome State Fault Refusal :=
  happened (s.onCore s.turn.unit fun k => k.bankReady s.turn.item)
/-- LANDING_BUFFER_MOVE (R178). -/
def execLandingBufferMove (s : State) : Host.Outcome State Fault Refusal :=
  happened (s.onCore s.turn.unit Core.landingMove)
/-- ARRAY_START (R188). -/
def execArrayStart (s : State) : Host.Outcome State Fault Refusal := happened (s.onCore s.turn.unit Core.arrayStart)
/-- ARRAY_STREAMING_END (R179, R190): the slices left of an operation, or with the flag the next one of them. -/
def execArrayStreamingEnd (s : State) : Host.Outcome State Fault Refusal :=
  happened (s.onCore s.turn.unit fun k => k.stream s.turn.item (if s.turn.flag then 1 else 8))
/-- ARRAY_OP_COMPLETE (R190, R196, R200): the stages left of an operation, or with the flag the next one of them. -/
def execArrayOpComplete (s : State) : Host.Outcome State Fault Refusal :=
  happened (s.onCore s.turn.unit fun k => k.finish s.turn.item (if s.turn.flag then 1 else 16))

/-! ### Translation and the fault queue (R273 to R278) -/

/-- FAULT_RECORD_WRITE (R278). -/
def execFaultRecordWrite (s : State) : Host.Outcome State Fault Refusal := happened (s.writeFault s.turn.unit)

/-- MEM_REQUEST_SLOT_GRANT (R267, R273): in order of arrival among those whose line stands in no slice, while the channel has a slot; a
line for which the instruction holds one takes no other. Beyond the package, the portal accepts the access (R303). -/
def execMemRequestSlotGrant (s : State) : Host.Outcome State Fault Refusal :=
  s.withAccess (fun a => a.stage == .ready && !a.queued && !a.away && s.inOrder a) fun a =>
    if s.isHbm a.pa then
      let die := dieOfPa a.pa
      let ch := channelOf a.pa
      let before := s.accesses.any fun b =>
        decide (b.id < a.id) && b.stage == .ready && !b.queued && !b.away && s.isHbm b.pa && dieOfPa b.pa == die && channelOf b.pa == ch &&
          !s.inSlice b.pa b.size && s.inOrder b
      let shared := (s.slotLines die ch).contains a.line
      if shared then s.setAccess { a with stage := .granted }
      else if s.slotsHeld die ch < 1024 ∧ !before then ((s.setAccess { a with stage := .granted })).slotUsed die ch
      else s
    else { s.setAccess { a with stage := .granted, order := s.nextId } with nextId := s.nextId + 1 }

/-! ### Performance and reply (R286, R295, R315) -/

/-- Whether an access is a plain load or store. -/
def Access.isPlain (a : Access) : Bool := match a.kind with | .load _ => true | .store => true | _ => false

/-- MEM_ACCESS_PERFORM (R295). -/
def execMemAccessPerform (s : State) : Host.Outcome State Fault Refusal :=
  s.withAccess (fun a => a.isPlain && !a.repl && s.mayPerform a) s.performAccess
/-- REPL_MULTICAST_STORE (R315). -/
def execReplMulticastStore (s : State) : Host.Outcome State Fault Refusal :=
  s.withAccess (fun a => a.isPlain && a.repl && s.mayPerform a) s.multicast
/-- ACCESS_REPLY (R295); the reply to a lane of a saved group waits for CTXLD (R330). -/
def execAccessReply (s : State) : Host.Outcome State Fault Refusal :=
  s.withAccess (fun a => a.stage == .replying && a.plainLane && decide (a.gid < 32)) s.replyAccess

/-- The access that a lane waits for in WAITV. -/
def State.waitvOf (s : State) (core gid l : Nat) : Option Access :=
  match ((s.group core gid).lane l).wait with
  | .waitv id => s.access? id
  | _ => none

/-- WAITV_RECHECK (R292). -/
def execWaitvRecheck (s : State) : Host.Outcome State Fault Refusal :=
  match s.waitvOf s.turn.unit s.turn.item s.turn.sub with
  | some a => if s.mayPerform a then happened (s.performAccess a) else .next s
  | none => .next s

/-- SETTLE_SWEEP (R308). -/
def execSettleSweep (s : State) : Host.Outcome State Fault Refusal := happened (s.sweep s.turn.unit)

/-! ### Service units (R319 to R334) -/

/-- SVC_REQUEST_PERFORM (R319, R323, R329). -/
def execSvcRequestPerform (s : State) : Host.Outcome State Fault Refusal :=
  s.withAccess (fun a => !a.queued && !a.away && !isHost a.pa && s.mayPerform a) s.performRequest
/-- PACQ_RETRY (R330): every 256 clk. -/
def execPacqRetry (s : State) : Host.Outcome State Fault Refusal :=
  s.withAccess (fun a => a.away && !a.queued && a.stage == .ready && decide (a.since + 256 ≤ s.clk)) s.performRequest
/-- PORTAL_COMPLETION (R326, R343). -/
def execPortalCompletion (s : State) : Host.Outcome State Fault Refusal :=
  s.withAccess (fun a => isHost a.pa && a.isRequest && s.mayPerform a)
    fun a => s.portalDone a s.turn.flag
/-- FALLBACK_PERMIT_GRANT (R331, R337). -/
def execFallbackPermitGrant (s : State) : Host.Outcome State Fault Refusal := happened (s.grantFallback s.turn.unit)
/-- TX_VALIDATE_TIMER (R334). -/
def execTxValidateTimer (s : State) : Host.Outcome State Fault Refusal :=
  happened (s.validateTimer s.turn.unit s.turn.item s.turn.sub)
/-- TX_VALIDATE_REPLY (R334). -/
def execTxValidateReply (s : State) : Host.Outcome State Fault Refusal :=
  happened (s.validateReply s.turn.unit s.turn.item s.turn.sub)

end Sys2Proof.Machine
end

