-- ==== Sys2Proof/Machine/Copy.lean ====
section
/-!
DEFINITION. Asynchronous copies (spec/14, R344 to R354): ACP and ACPS of the lanes, the requests of the copy engines, and their
events.
-/
namespace Sys2Proof.Machine

/-! ### Tags and error words (R345, R353) -/

/-- An error recorded in a tag's error word (R353): the first code stays. -/
def Tag.fail (t : Tag) (code : Nat) : Tag := { t with err := if t.err = 0 then code else t.err ||| 256 }

/-- Lanes that leave a copy instruction for their abort targets: a copy inside a transaction (R333, R347). -/
def State.abortCopies (s : State) (c : Ctx) (ls : List Nat) : State := ls.foldl (fun s l => s.abortTx c.core c.gid l 3 id) s

/-- Lane-transfer entries in use on a core (R344, R353). -/
def State.laneEntries (s : State) (core : Nat) : Nat :=
  (s.accesses.filter fun a => a.core == core && match a.kind with | .acpIn _ _ => true | .acpOut _ => true | _ => false).length

/-! ### ACP and ACPS (R349, R350) -/

/-- The first trap that a lane of ACP or ACPS finds (R349): kind, cause, address. -/
def State.acpFail (s : State) (f : FM) (c : Ctx) (l : Nat) : Option (Nat × Nat × Nat) :=
  let x := s.grp c
  let n := sizeOf f.sz
  let w := x.rd32 f.d l
  let p := bits w 18 0
  if bits w 31 30 ≠ 0 ∨ bits w 23 19 ≠ 0 then some (6, 0, 0)
  else if fmAddr f x l % n ≠ 0 then some (13, 1, fmAddr f x l)
  else if p % n ≠ 0 then some (10, causeAlign, p)
  else if (s.core c.core).partSize c.slot < p + n then some (10, causeRange, p)
  else none

/-- The transfer of a lane (R349): the valid bytes only; one without any has nothing to translate. -/
def State.acpAccess (s : State) (f : FM) (c : Ctx) (out : Bool) (clock l : Nat) : Access :=
  let x := s.grp c
  let n := sizeOf f.sz
  let w := x.rd32 f.d l
  let p := (s.core c.core).partBase c.slot + bits w 18 0
  let v := min (bits w 29 24) n
  { s.newAccess c l f (if out then .acpOut p else .acpIn p n) (fmAddr f x l) v .none 0 with
    c := clock, tag := tagOf f.c, stage := if v = 0 then .ready else .issued }

/-- ACP and ACPS (R349): a release at domain scope (R313). -/
def State.laneCopy (s : State) (f : FM) (out : Bool) : Host.Outcome State Fault Refusal :=
  s.issue [src32 f.d, src64 f.a, src32 f.b, { tagUse f.c with noneOk := false }] fun s c =>
    let x := s.grp c
    let (tx, ls) := c.act.partition x.inTx
    let fails := ls.filterMap fun l => (s.acpFail f c l).map fun e => (l, e)
    let why (l : Nat) : Nat × Nat × Nat := ((fails.find? fun e => e.1 == l).map fun e => e.2).getD (6, 0, 0)
    let trap (s : State) : State :=
      s.enterTraps c.core c.gid (fun l => let e := why l; ⟨e.1, e.2.1, c.pc, e.2.2, 0, none⟩) (fails.map fun e => e.1)
    if !fails.isEmpty then .done (trap (s.abortCopies c tx))
    else if !s.mayRelease c.core c.gid 3 ls || decide (1024 < s.laneEntries c.core + ls.length) then .stall
    else
      let clock := x.maxC ls
      let t := ls.foldl (fun t l => t.addAccess (s.acpAccess f c out clock l)) (s.advance c)
      let t := t.onGrp c fun x => match tagOf f.c with
        | some k => ls.foldl (fun x _ => x.onTag k Tag.add) x
        | none => x
      .done ((if (out && !ls.isEmpty) || ls.any (fun l => (x.lane l).tx.active) then t.notIdem c else t).abortCopies c tx)

/-- ACP (R349). -/
def execAcp (f : FM) (s : State) : Host.Outcome State Fault Refusal := s.laneCopy f false
/-- ACPS (R349). -/
def execAcps (f : FM) (s : State) : Host.Outcome State Fault Refusal := s.laneCopy f true

/-! ### Scratchpad order of a group's transfers (R346) -/

/-- The bytes of its core's scratchpad that an engine request writes (R346). -/
def State.engWrites (s : State) (r : EngReq) : List (Nat × Nat) :=
  match r.kind with
  | .copy true _ => [(r.dst, r.bytes)]
  | .copy false _ => []
  | .gath _ _ => [(r.dst, r.bytes)]
  | .fill _ _ => []
  | .adapter => [(r.dst, r.bytes)]
  | .mcast _ => r.targets.filterMap fun t => if t.1 = r.core then some ((s.core t.1).partBase t.2 + r.dst, r.bytes) else none

/-- Whether an engine request writes global memory: a copy-out (R347). -/
def EngReq.copiesOut (r : EngReq) : Bool := match r.kind with | .copy false _ => true | .fill _ _ => true | _ => false

/-- The bytes of its core's scratchpad that an engine request reads (R346). -/
def EngReq.reads (r : EngReq) : List (Nat × Nat) :=
  match r.kind with
  | .copy _ true => [(r.src, r.bytes)]
  | .copy _ false => []
  | .gath row list => [(list, 4 * (r.bytes / row))]
  | .fill _ _ => []
  | .adapter => []
  | .mcast true => [(r.src, r.bytes)]
  | .mcast false => []

/-- Whether an earlier transfer of a group has still to write scratchpad bytes of one of some ranges (R346). -/
def State.spadOwed (s : State) (core uid gid id : Nat) (rs : List (Nat × Nat)) : Bool :=
  let meets (p n : Nat) : Bool := rs.any fun r => rangesMeet p n r.1 r.2
  (s.accesses.any fun a => a.core == core && a.gid == gid && decide (a.id < id) && a.tag.isSome &&
    match a.kind with | .acpIn p n => meets p n | _ => false) ||
  (s.die (dieOf core)).engine.any fun r => r.core == core && r.uid == uid && decide (r.id < id) && (s.engWrites r).any fun w => meets w.1 w.2

/-- Whether a lane transfer must wait for an earlier transfer of its group (R346). -/
def State.copyWaits (s : State) (a : Access) : Bool :=
  let uid := (s.group a.core a.gid).uid
  match a.kind with
  | .acpIn p n => s.spadOwed a.core uid a.gid a.id [(p, n)]
  | .acpOut p => s.spadOwed a.core uid a.gid a.id [(p, a.size)]
  | _ => false

/-- The bytes of an ACPS, read from scratchpad (R346); one that has parked sends those of its log entry (R350). -/
def State.copyData (s : State) (a : Access) : Access :=
  match a.kind with
  | .acpOut p => if a.late then a else { a with data := (s.core a.core).spadRead p a.size }
  | _ => a

/-- A lane transfer is over (R345): its entry is free and its count drops with its stamp. -/
def State.endTransfer (s : State) (a : Access) (stamp : Nat) : State :=
  (s.dropAccess a.id).onGroup a.core a.gid fun x =>
    match a.tag with
    | some k => x.onTag k fun t => t.drop stamp
    | none => x

/-- A transfer's bytes at one physical place (R349): read there, or written, recorded, and its sectors locked for an irrevocable run
(R337). -/
def State.transferAt (s : State) (a : Access) (st : Nat) (writes : Bool) (pa : Nat) : State :=
  let a := { a with pa := pa }
  let bits := lineSectors pa a.size
  let s := if a.size = 0 then s else s.touchLine pa a.rd bits (if writes then bits else 0) false
  let s := if writes then s.pwrite pa a.size a.data a.mask else s
  let s := if s.stamped pa then s.record pa a.size (hashOf (s.fid a.core a.gid a.lane)) st (!writes) writes a.sectorMask else s
  s.lockAt a pa

/-- An ACP or ACPS transfer is carried out (R349): its global access, its scratchpad bytes, its tag. A copy out through a replicated leaf
writes every replica with one stamp (R315). An uncorrectable source parks it and is pending for the lane (R350). -/
def State.carryTransfer (s : State) (a : Access) : State :=
  let own := s.stamped a.pa && a.size != 0
  let pas := if a.repl then [0, 1, 2, 3].map (replicaOf a.pa) else [a.pa]
  let st := match (if own then s.ckptEntry a.ckptKey else none) with
    | some (st, _) => st
    | none => if own then s.stampOver a (pas.flatMap fun p => sectorsOf p a.size) else a.c
  let carried (writes : Bool) : State :=
    let t := pas.foldl (fun t p => t.transferAt a st writes p) s
    if own then t.ckptNote s a st else t
  match a.kind with
  | .acpIn p n =>
    if s.failing a then (if a.orphan then s.endTransfer a st else s.parkBad a 2)
    else ((carried false).onCore a.core fun k => k.spadWrite p n (s.pread a.pa a.size)).endTransfer a st
  | .acpOut _ => (carried true).endTransfer a st
  | _ => s

/-- Whether an access is a lane transfer. -/
def Access.isCopy (a : Access) : Bool := match a.kind with | .acpIn _ _ => true | .acpOut _ => true | _ => false

/-- Whether an access may translate now: not an ACPS that must wait for its bytes (R346, R350), an access to a page whose invalidation is
under way or whose walk finds no slot (R267, R283), one that is held (R276, R279), or one that finds no operand-log entry (R276). -/
def State.mayTranslate (s : State) (a : Access) : Bool := !s.copyWaits a && !s.walkHolds a && !s.isHeld a && s.logTries a

/-- ACP_TRANSFER_COMPLETE (R345, R349). -/
def execAcpTransferComplete (s : State) : Host.Outcome State Fault Refusal :=
  s.withAccess (fun a => a.isCopy && !s.copyWaits a && ((a.size == 0 && a.stage == .ready) || s.mayPerform a)) fun a => s.carryTransfer a

/-! ### Requests of the copy engines (R351, R352) -/

/-- Requests of a slot of a core in the die's queue (R344). -/
def Die.engineOf (d : Die) (core slot : Nat) : Nat := (d.engine.filter fun r => r.core == core && r.slot == slot).length

/-- A request queued for the lowest active lane, with its tag or with its set stalled (R344, R345, R351). -/
def State.queueCopy (s : State) (c : Ctx) (ls : List Nat) (global : Bool) (tag : Option Nat) (mk : EngReq → EngReq) : Issued :=
  let x := s.grp c
  let d := s.die (dieOf c.core)
  if !s.mayRelease c.core c.gid 3 ls || decide (1024 ≤ d.engine.length) || decide (64 ≤ d.engineOf c.core c.slot) then .stall
  else
    let r : EngReq := mk
      { id := s.nextId, core := c.core, gid := c.gid, uid := x.uid, slot := c.slot, lane := ls.headD 0, mode := c.mode, pc := c.pc.toNat,
        seqno := x.seqno, kind := .copy false false, tag := tag, errTag := tag, dst := 0, src := 0, bytes := 0, done := 0, phys := false,
        targets := [], arrive := none, stamp := x.maxC ls, fault := none, ended := false, moving := false, zeroed := none,
        irrev := ls.any fun l => (x.lane l).tx.active }
    let t := { s with nextId := s.nextId + 1 }.onDie (dieOf c.core) fun d => { d with engine := d.engine ++ [r] }
    let t := if global || r.irrev then t.notIdem c else t
    match tag with
    | some k => .done ((t.advance c).onGrp c fun x => x.onTag k Tag.add)
    | none =>
      let stalled := c.set.filter fun l => !x.inTx l || !c.act.contains l
      .done (t.onGrp c fun x => x.onLanes stalled fun _ k => { k with wait := .reply r.id })

/-- A copy instruction that takes its operands from the lowest active lane outside transactions: its checks, then its request; a
request of nothing only passes (R347, R351). -/
def State.engineCopy (s : State) (uses : List Use) (phys : Bool) (check : State → Ctx → Nat → Option (Nat × Nat × Nat))
    (empty : Ctx → Group → Nat → Bool) (send : State → Ctx → List Nat → Issued) : Host.Outcome State Fault Refusal :=
  s.issueWith [] uses (fun c _ => !phys || decide (c.mode ≠ .u)) fun s c =>
    let x := s.grp c
    let (tx, ls) := c.act.partition x.inTx
    match ls with
    | [] => .done ((s.advance c).abortCopies c tx)
    | l :: _ =>
      match check s c l with
      | some (kind, cause, a) => .done ((s.abortCopies c tx).enterTraps c.core c.gid (fun _ => ⟨kind, cause, c.pc, a, 0, none⟩) ls)
      | none =>
        if empty c x l then .done ((s.advance c).abortCopies c tx)
        else match send s c ls with
          | .done t => .done (if tx.isEmpty then t else (t.onGrp c fun x => x.onLanes tx fun _ k => { k with pc := c.next }).abortCopies c tx)
          | r => r

/-- A scratchpad side of a copy: multiples of 4, inside the partition (R351). -/
def State.spadSide (s : State) (c : Ctx) (p n : Nat) : Option (Nat × Nat × Nat) :=
  if p % 4 ≠ 0 ∨ n % 4 ≠ 0 then some (10, causeAlign, p)
  else if (s.core c.core).partSize c.slot < p + n then some (10, causeRange, p) else none

/-- A scratchpad address of a copy: bits [18:0] of a 32-bit operand (R351). -/
def spadOperand (o : Operand) (x : Group) (l : Nat) : Nat := bits (x.rd32 o l) 18 0
/-- A global address of a copy: bits [52:0], or [51:0] with PHYS (R351). -/
def globalOperand (o : Operand) (phys : Bool) (x : Group) (l : Nat) : Nat := x.rd64 o l % 2 ^ (if phys then 52 else 53)

/-- XCOPY (R351). -/
def execXcopy (f : F3) (s : State) : Host.Outcome State Fault Refusal :=
  let dsp := f.md.getLsbD 0
  let ssp := f.md.getLsbD 1
  let phys := f.md.getLsbD 2
  s.engineCopy [srcW (!dsp) f.d, srcW (!ssp) f.a, src32 f.b, tagUse f.c] phys
    (fun s c l =>
      let x := s.grp c
      let n := x.rd32 f.b l
      let a := if dsp then s.spadSide c (spadOperand f.d x l) n else none
      let b := if ssp then s.spadSide c (spadOperand f.a x l) n else none
      a.or b)
    (fun _ x l => x.rd32 f.b l == 0)
    fun s c ls =>
      let x := s.grp c
      let l := ls.headD 0
      let base := (s.core c.core).partBase c.slot
      s.queueCopy c ls (!dsp) (tagOf f.c) fun r =>
        { r with kind := .copy dsp ssp, bytes := x.rd32 f.b l, phys := phys,
                 dst := if dsp then base + spadOperand f.d x l else globalOperand f.d phys x l,
                 src := if ssp then base + spadOperand f.a x l else globalOperand f.a phys x l }

/-- XGATH (R351). -/
def execXgath (f : F3) (s : State) : Host.Outcome State Fault Refusal :=
  let row := 2 ^ f.md.toNat
  s.engineCopy [src32 f.d, src64 f.a, src64 f.b, tagUse f.c] false
    (fun s c l =>
      let x := s.grp c
      let b := x.rd64 f.b l
      let n := bits b 47 32
      let a := globalOperand f.a false x l
      if bits b 63 48 ≠ 0 ∨ bits b 31 19 ≠ 0 then some (6, 0, 0)
      else
        let d := s.spadSide c (spadOperand f.d x l) (n * row)
        let i := s.spadSide c (bits b 18 0) (4 * n)
        let m := if a % min row 32 ≠ 0 then some (13, 1, a) else none
        d.or (i.or m))
    (fun _ x l => bits (x.rd64 f.b l) 47 32 == 0)
    fun s c ls =>
      let x := s.grp c
      let l := ls.headD 0
      let base := (s.core c.core).partBase c.slot
      s.queueCopy c ls false (tagOf f.c) fun r =>
        { r with kind := .gath row (base + bits (x.rd64 f.b l) 18 0), bytes := bits (x.rd64 f.b l) 47 32 * row,
                 dst := base + spadOperand f.d x l, src := globalOperand f.a false x l }

/-- XFILL (R351). -/
def execXfill (f : F3) (s : State) : Host.Outcome State Fault Refusal :=
  let wide := f.md.getLsbD 0
  let phys := f.md.getLsbD 2
  let w := if wide then 8 else 4
  s.engineCopy [src64 f.d, srcW wide f.a, src32 f.b, tagUse f.c] phys
    (fun s c l =>
      let x := s.grp c
      let d := globalOperand f.d phys x l
      if d % w ≠ 0 ∨ x.rd32 f.b l % w ≠ 0 then some (13, 1, d) else none)
    (fun _ x l => x.rd32 f.b l == 0)
    fun s c ls =>
      let x := s.grp c
      let l := ls.headD 0
      s.queueCopy c ls true (tagOf f.c) fun r =>
        { r with kind := .fill (x.rd f.a l wide) w, bytes := x.rd32 f.b l, phys := phys, dst := globalOperand f.d phys x l }

/-- The core and context slot a role of the group's operator names (R352, R214); a role in another cluster too (log 25). -/
def State.roleAnywhere (s : State) (core : Nat) (x : Group) (r : Nat) : Option (Nat × Nat) :=
  match s.opOf core x with
  | none => none
  | some o => (o.roles[r]?).join.map fun c => (c, o.ctxslot)

/-- XMCAST (R352). -/
def execXmcast (f : FK) (s : State) : Host.Outcome State Fault Refusal :=
  let i := f.imm.toNat
  let roles := (List.range 16).filter fun r => bit i r
  let tag := bits i 18 16
  let tagen := bit i 19
  let arr := bit i 20
  let ssp := bit i 21
  s.engineCopy [src64 f.d, src64 f.a, src32 f.b] false
    (fun s c l =>
      let x := s.grp c
      let d := x.rd64 f.d l
      let o := bits d 18 0
      let a := bits d 50 32
      let n := x.rd32 f.b l
      if bits d 63 51 ≠ 0 ∨ bits d 31 19 ≠ 0 then some (6, 0, 0)
      else if o % 4 ≠ 0 ∨ n % 4 ≠ 0 ∨ (arr ∧ a % 8 ≠ 0) then some (10, causeAlign, o)
      else
        let src := if ssp then s.spadSide c (bits (x.rd64 f.a l) 18 0) n else none
        let bad := roles.any fun r => match s.roleAnywhere c.core x r with
          | none => true
          | some (k, j) => decide ((s.core k).partSize j < o + n) || (arr && decide ((s.core k).partSize j < a + 8))
        src.or (if bad then some (10, causeRange, o) else none))
    (fun _ x l => roles.isEmpty || x.rd32 f.b l == 0)
    fun s c ls =>
      let x := s.grp c
      let l := ls.headD 0
      let d := x.rd64 f.d l
      s.queueCopy c ls false (if tagen then some tag else none) fun r =>
        { r with kind := .mcast ssp, bytes := x.rd32 f.b l, dst := bits d 18 0, errTag := some tag,
                 targets := roles.filterMap (s.roleAnywhere c.core x), arrive := if arr then some (bits d 50 32) else none,
                 src := if ssp then (s.core c.core).partBase c.slot + bits (x.rd64 f.a l) 18 0 else globalOperand f.a false x l }

/-! ### XSTAT (R353) -/

/-- A field that must name a tag and does not stall on it. -/
def namedTag (o : Operand) : Use := { tagUse o with noneOk := false }

/-- XSTAT.CNT (R353). -/
def execXstatCnt (f : F3) (s : State) : Host.Outcome State Fault Refusal :=
  s.issueGroup [dst32 f.d, namedTag f.a] fun c x => let v := (x.tag ((tagOf f.a).getD 0)).count; x.wr c f.d false fun _ => v
/-- XSTAT.ERR (R353). -/
def execXstatErr (f : F3) (s : State) : Host.Outcome State Fault Refusal :=
  s.issueGroup [dst32 f.d, namedTag f.a] fun c x =>
    if c.act.isEmpty then x
    else
      let k := (tagOf f.a).getD 0
      let v := (x.tag k).err
      (x.wr c f.d false fun _ => v).onTag k fun t => { t with err := 0 }
/-- Engines of a die that are moving a piece (R344, R353). -/
def Die.moving (d : Die) : Nat := (d.engine.filter EngReq.moving).length

/-- XSTAT.ENG (R353). -/
def execXstatEng (f : F3) (s : State) : Host.Outcome State Fault Refusal :=
  s.issue [dst32 f.d] fun s c =>
    let d := s.die (dieOf c.core)
    let v := min d.engine.length 1024 * 2 ^ 20 + min (s.laneEntries c.core) 1024 * 2 ^ 9 + min d.moving 64
    .done ((s.advance c).onGrp c fun x => x.wr c f.d false fun _ => v)

/-! ### Pieces (R344, R351, R354) -/

/-- A request's agent: the on-chip map is open to an S- or H-mode request (R168). -/
def State.engAgent (s : State) (r : EngReq) : Agent :=
  { (s.agentFor r.core r.gid r.lane r.slot r.mode).forSeqno r.seqno with
    phys := r.phys, map := decide (r.mode ≠ .u), run := if r.irrev then some (r.core, r.gid, r.lane) else none }

/-- An engine request in its die's queue changed. -/
def State.setEng (s : State) (die : Nat) (r : EngReq) : State :=
  s.onDie die fun d => { d with engine := d.engine.map fun q => if q.id = r.id then r else q }

/-- An error of a request recorded in its tag's error word (R353, R354). -/
def State.engErr (s : State) (r : EngReq) (code : Nat) : State :=
  s.onGroup r.core r.gid fun x => if x.uid = r.uid then (match r.errTag with | some k => x.onTag k fun t => t.fail code | none => x) else x

/-- n bytes of a core's scratchpad for a copy, and which of them are uncorrectable. -/
def Core.copyRead (k : Core) (p n : Nat) : Nat × Nat :=
  (k.spadRead p n, maskOf ((k.badSpad.filter fun b => decide (p ≤ b) && decide (b < p + n)).map fun b => b - p))

/-- The bytes of one unit of a request, and the size of the unit (R351); a row whose index is uncorrectable is so itself. -/
def State.pieceRead (s : State) (r : EngReq) : Except AgentFail (AgentOut × Nat) :=
  let g := s.engAgent r
  let n := min 128 (r.bytes - r.done)
  let local_ (p n : Nat) : AgentOut := let v := (s.core r.core).copyRead p n; ⟨s, v.1, r.stamp, none, v.2⟩
  let fixed (v n bad : Nat) : Except AgentFail (AgentOut × Nat) := .ok (⟨s, v, r.stamp, none, bad⟩, n)
  match r.kind with
  | .copy _ true => .ok (local_ (r.src + r.done) n, n)
  | .copy _ false => (s.agentGet g r.stamp (r.src + r.done) n).map fun o => (o, n)
  | .gath row list =>
    let i := local_ (list + 4 * (r.done / row)) 4
    if i.bad ≠ 0 then fixed 0 row (2 ^ row - 1)
    else if i.value = 0xFFFFFFFF then fixed 0 row 0
    else (s.agentGet g r.stamp ((r.src + i.value * row) % 2 ^ 53) row).map fun o => (o, row)
  | .fill pattern w => fixed ((List.range (n / w)).foldl (fun v i => v + pattern * 2 ^ (8 * w * i)) 0) n 0
  | .adapter => (s.agentGet g r.stamp (r.src + r.done) n).map fun o => (o, n)
  | .mcast true => .ok (local_ (r.src + r.done) n, n)
  | .mcast false => (s.agentGet g r.stamp (r.src + r.done) n).map fun o => (o, n)

/-- n bytes written where a request's bytes from the place `at_` on go. -/
def State.unitPut (s : State) (r : EngReq) (c at_ n v : Nat) : Except AgentFail (State × Nat) :=
  match r.kind with
  | .copy false _ => s.agentPut (s.engAgent r) c (r.dst + at_) n v
  | .fill _ _ => s.agentPut (s.engAgent r) c (r.dst + at_) n v
  | .mcast _ => .ok (r.targets.foldl (fun s t => s.onCore t.1 fun k => k.spadWrite (k.partBase t.2 + r.dst + at_) n v) s, c)
  | _ => .ok (s.onCore r.core fun k => k.spadWrite (r.dst + at_) n v, c)

/-- The destination sectors, by number, that a unit of n bytes leaves as zeros (R354): those that an uncorrectable byte of it goes to, and
the last of the unit before where it was one. -/
def EngReq.zeroes (r : EngReq) (n bad : Nat) : List Nat :=
  ((List.range n).filter bad.testBit).map (fun i => (r.dst + r.done + i) / 32) ++ r.zeroed.toList

/-- A unit written (R354): zeros in the affected destination sectors, in the bytes of such a sector that the unit before wrote too. -/
def State.pieceWrite (s : State) (r : EngReq) (c n v bad : Nat) : Except AgentFail (State × Nat × Option Nat) :=
  let zs := r.zeroes n bad
  let sector (i : Nat) : Nat := (r.dst + r.done + i) / 32
  let v := if zs.isEmpty then v else
    (List.range n).foldl (fun v i => if zs.contains (sector i) then setBits v (8 * i + 7) (8 * i) 0 else v) v
  let back := if zs.contains (sector 0) && r.zeroed != some (sector 0) then min ((r.dst + r.done) % 32) r.done else 0
  (s.unitPut r c (r.done - back) (n + back) (v * 256 ^ back)).map fun t =>
    (t.1, t.2, if zs.contains (sector (n - 1)) then some (sector (n - 1)) else none)

/-- Units of a request moved until the piece is full, the request is done, or a unit fails (R344, R354). -/
def State.movePiece (s : State) (die : Nat) : Nat → Nat → EngReq → State × EngReq
  | 0, _, r => (s, r)
  | fuel + 1, moved, r =>
    if r.bytes ≤ r.done ∨ 65536 ≤ moved then (s, r)
    else
      let stop (e : AgentFail) : State × EngReq :=
        match e with
        | .xlate f va => (s.postFault die (s.engineFault (s.engAgent r) r.core r.gid r.lane r.slot r.seqno va f), { r with fault := some va })
        | .addr => (s.engErr r 2, { r with ended := true })
        | .busy => (s, r)
        | .uncorr _ => (s, r)
      match s.pieceRead r with
      | .error e => stop e
      | .ok (o, n) =>
        match o.s.pieceWrite r o.c n o.value o.bad with
        | .error e => stop e
        | .ok (t, c, z) =>
          let t := if o.bad ≠ 0 then t.engErr r 3 else t
          t.movePiece die fuel (moved + n) { r with done := r.done + n, stamp := c, zeroed := z }

/-- Whether a request has bytes to move and nothing to wait for (R344, R346, R354). -/
def State.pieceReady (s : State) (r : EngReq) : Bool :=
  r.fault.isNone && !r.ended && decide (r.done < r.bytes) && !s.spadOwed r.core r.uid r.gid r.id (r.reads ++ s.engWrites r)

/-- An engine that is free takes the oldest queued request that has a piece to move (R344); none takes one that another is moving. -/
def State.takePiece (s : State) (die : Nat) : State :=
  match (s.die die).engine.find? fun r => !r.moving && s.pieceReady r with
  | some r => if (s.die die).moving < 64 then s.setEng die { r with moving := true } else s
  | none => s

/-- An engine ends the piece that it moves (R344): a request with bytes left goes to the back of the queue, and one that has met a fault
waits where it stands (R354). -/
def State.endPiece (s : State) (die : Nat) (r : EngReq) : State :=
  let (t, r) := s.movePiece die 16384 0 { r with moving := false }
  if r.done < r.bytes ∧ !r.ended ∧ r.fault.isNone then
    t.onDie die fun d => { d with engine := (d.engine.filter fun q => q.id != r.id) ++ [r] }
  else t.setEng die r

/-- ENGINE_PIECE (R344): with the flag an engine takes a piece, without it the engine that moves the request named ends its piece. -/
def execEnginePiece (s : State) : Host.Outcome State Fault Refusal :=
  let die := s.turn.unit
  if s.turn.flag then happened (s.takePiece die)
  else match (s.die die).engine.find? fun r => r.id == s.turn.item && r.moving with
    | some r => happened (s.endPiece die r)
    | none => .next s

/-- XMCAST_TARGET_ARRIVE (R352): all bytes are written; a target's arrival, or its end without one. -/
def execXmcastTargetArrive (s : State) : Host.Outcome State Fault Refusal :=
  let die := s.turn.unit
  match (s.die die).engine.find? (fun r => r.id == s.turn.item && r.done == r.bytes && !r.ended) with
  | none => .next s
  | some r =>
    match r.kind, r.targets with
    | .mcast _, (core, slot) :: rest =>
      let t := s.setEng die { r with targets := rest }
      match r.arrive with
      | none => happened t
      | some a =>
        let p := (t.core core).partBase slot + a
        if ((t.core core).arrWord p).expect = 0 then happened (t.engErr r 4)
        else happened (t.onCore core fun k => (k.arriveAt p 1 r.stamp).1)
    | _, _ => .next s

/-- Whether nothing of a request is left to do. -/
def EngReq.spent (r : EngReq) : Bool :=
  r.ended || (r.done == r.bytes && match r.kind with | .mcast _ => r.targets.isEmpty | _ => true)

/-- ENGINE_REQUEST_COMPLETE (R345, R351): its tag drops, or the lanes that stalled for it go on, having acquired (log 27). -/
def execEngineRequestComplete (s : State) : Host.Outcome State Fault Refusal :=
  let die := s.turn.unit
  match (s.die die).engine.find? (fun r => r.id == s.turn.item && r.spent) with
  | none => .next s
  | some r =>
    let t := s.onDie die fun d => { d with engine := d.engine.filter fun q => q.id != r.id }
    happened (t.onGroup r.core r.gid fun x =>
      if x.uid ≠ r.uid then x
      else match r.tag with
        | some k => x.onTag k fun g => g.drop r.stamp
        | none => x.onLanes (x.live.filter fun l => (x.lane l).wait == .reply r.id) fun _ k =>
            { k.acquire r.stamp with wait := .none, pc := if r.kind = .adapter then k.pc else nextPc k.pc })

end Sys2Proof.Machine
end

