-- ==== Sys2Proof/Machine/Tok.lean ====
section
/-!
DEFINITION. Token records, Col units, the dispatcher, forwarding, the merge, the balancer and the stall watch (spec/09), and the
instructions RHDR, TKFWD, TKPARK, TKDONE, TKNEW, GATEK and COLQ.
-/
namespace Sys2Proof.Machine

/-! ### Fields (R205, R207, R208) -/

/-- KIND, SEQ and TENANT of a row header word. -/
def hdrKind (h : Nat) : Nat := h % 4
def hdrSeq (h : Nat) : Nat := bits h 21 2
def hdrTenant (h : Nat) : Nat := bits h 57 52
/-- Adapter and expert of a row tag; its operator slot is the tag modulo 256. -/
def tagAdapter (t : Nat) : Nat := bits t 27 16
def tagExpert (t : Nat) : Nat := bits t 15 8
/-- A row tag. -/
def mkTag (adapter expert op : Nat) : Nat := adapter % 4096 * 2 ^ 16 + expert % 256 * 2 ^ 8 + op % 256
/-- The next-operator word of an operator of a die. -/
def mkNext (pkg die op : Nat) : Nat := pkg * 2 ^ 22 + die * 2 ^ 20 + op % 256
/-- Whether a next-operator word names a die of this package. -/
def State.isLocal (s : State) (n die : Nat) : Bool := bits n 31 22 == s.pkg && bits n 21 20 == die

/-- The operator that a slot's rows belong to: a clone's original (R228). -/
def Die.canon (d : Die) (n : Nat) : Nat := ((d.op? n).bind fun o => o.cloneOf).getD n
/-- Whether a slot is BOUND. -/
def Die.isBound (d : Die) (n : Nat) : Bool := match d.op? n with | some o => o.st == 1 | none => false
/-- The clones of an operator, by slot (R228). -/
def Die.clonesOf (d : Die) (n : Nat) : List (Nat × OpSlot) := d.ops.filter fun o => o.2.cloneOf == some n
/-- An operator slot changed. -/
def Die.onOp (d : Die) (n : Nat) (f : OpSlot → OpSlot) : Die :=
  match d.op? n with
  | some o => { d with ops := d.ops.put n (f o) }
  | none => d
/-- A record changed. -/
def Die.onRec (d : Die) (r : Nat) (f : Rec → Rec) : Die :=
  match d.recs.find? r with
  | some x => { d with recs := d.recs.put r (f x) }
  | none => d

/-- A Col unit that no record has entered. -/
def Col.empty : Col := ⟨[], List.replicate 64 none, [], 0⟩
/-- A Col unit, numbered 8 · cluster + unit. -/
def Die.col (d : Die) (u : Nat) : Col := (d.cols.find? u).getD Col.empty

/-! ### The record space (R206, R209) -/

/-- Free record ids of a die. -/
def Die.freeRecs (d : Die) : Nat := 2 ^ 20 - d.recs.length

/-- The first free index from a place on, wrapping. -/
def Die.freeRec (d : Die) : Nat → Nat → Nat
  | 0, i => i % 2 ^ 20
  | n + 1, i => if (d.recs.find? (i % 2 ^ 20)).isNone then i % 2 ^ 20 else d.freeRec n (i + 1)

/-- The index a new record takes: a free value among the free ones (log 15). -/
def State.takeRec (s : State) (die : Nat) : Nat := (s.die die).freeRec (s.die die).recs.length (Config.recordStart s.free)

/-! ### Demand and what the watches see (R216, R228, R231) -/

/-- Rows of an operator that its Col unit holds. -/
def Die.rowsOf (d : Die) (n : Nat) : List ColRow := (d.cols.flatMap fun c => c.2.rows).filter fun r => d.canon (r.tag % 256) == n
/-- Rows of an operator that wait in STORE, those of a merge among them (R241). -/
def Die.storeRows (d : Die) (n : Nat) : Nat :=
  ((d.cols.flatMap fun c => c.2.waiting).filter fun r => d.canon (r.tag % 256) == n).length +
  (((d.merge.filter Held.here).flatMap fun h => h.tags).filter fun t => d.canon (t % 256) == n).length
/-- demand(X) of R216. -/
def Die.demand (d : Die) (n : Nat) : Nat := (d.rowsOf n).length + d.storeRows n

/-- Since when a condition has held. -/
def keepSince (on : Bool) (old : Option Nat) (now : Nat) : Option Nat := if on then some (old.getD now) else none

/-- The regions that a record keeps busy: it names an operator of the region and stands in STORE, COL or TILE (R231). -/
def Die.busyRegions (d : Die) : List Nat :=
  (List.range 16).filter fun g => d.recs.any fun r =>
    decide (1 ≤ r.2.place) && decide (r.2.place ≤ 3) && !(d.merge.any fun h => h.rid == r.1 && !h.here) &&
    match d.op? (d.canon (r.2.next % 256)) with | some o => o.st == 1 && o.region == g | none => false

/-- What the balancer and the stall watch have seen so far, brought up to date (R228, R231). -/
def Die.note (d : Die) (now : Nat) : Die :=
  let busy := d.busyRegions
  { d with
    ops := d.ops.map fun o =>
      let n := d.demand o.1
      (o.1, { o.2 with hotSince := keepSince (decide (o.2.balMark < n)) o.2.hotSince now,
                       coldSince := keepSince (decide (2 * n < o.2.balMark)) o.2.coldSince now }),
    busySince := busy.map fun g => (g, (d.busySince.find? g).getD now) }

/-- A die's watches brought up to date. -/
def State.noteDie (s : State) (die : Nat) : State := s.onDie die fun d => d.note s.clk

/-! ### Predictions (R251) -/

/-- The predictions of a record cancelled. -/
def Die.cancelPredictions (d : Die) (r : Nat) : Die :=
  { d with ridge := { d.ridge with reserved := d.ridge.reserved.filter fun v => v.rid != some r } }

/-- GATEK's check of a record's predictions (R251): those of a chosen expert are confirmed, the others cancelled. -/
def Die.confirmPredictions (d : Die) (r : Nat) (chosen : List Nat) : Die :=
  let kept := d.ridge.reserved.filter fun v => v.rid != some r || chosen.contains (v.key % 256)
  { d with ridge := { d.ridge with reserved := kept.map fun v => if v.rid = some r then { v with rid := none } else v } }

/-! ### Routing (R215, R225 to R229) -/

/-- A record's rows queued for the Col unit of the operator that its NEXT names. -/
def Die.enqueue (d : Die) (r : Nat) (tags : List Nat) : Die :=
  match tags with
  | [] => d
  | t :: _ =>
    match d.op? (d.canon (t % 256)) with
    | none => d
    | some o => let u := d.col o.home
                { d with cols := d.cols.put o.home { u with waiting := u.waiting ++ tags.map fun t => ⟨r, t, 0⟩ } }

/-- A record sent on by its NEXT: to a Col unit of its die, or as a token packet (R215, R227). -/
def State.sendRec (s : State) (die r : Nat) (tags : List Nat) (fwd : Option Forward) : State :=
  match (s.die die).recs.find? r with
  | none => s
  | some x =>
    if s.isLocal x.next die then s.onDie die fun d => (d.onRec r fun x => { x with place := 1 }).enqueue r tags
    else
      let p : Packet :=
        { id := s.nextId, srcDie := die, srcRec := r, pkg := bits x.next 31 22, die := bits x.next 21 20, image := x, tags := tags,
          accepted := false, fwd := fwd }
      { s with nextId := s.nextId + 1, packets := s.packets ++ [p] }.onDie die fun d => d.onRec r fun x => { x with place := 4 }

/-- The Col unit that a record's NEXT leads to: package, die and unit; of another package's units only the die is known. -/
def State.destination (s : State) (n : Nat) : Nat × Nat × Nat :=
  let d := s.die (bits n 21 20)
  (bits n 31 22, bits n 21 20, if bits n 31 22 = s.pkg then (d.op? (d.canon (n % 256))).elim 0 fun o => o.home else 0)

/-- The records that the merges hold, each with its die. -/
def State.merges (s : State) : List (Nat × Held) := s.dies.flatMap fun d => d.2.merge.map fun h => (d.1, h)

/-- NEXT of a record that a merge holds. -/
def State.heldNext (s : State) (g : Nat × Held) : Nat := ((s.die g.1).recs.find? g.2.rid).elim 0 fun x => x.next

/-- Whether one forward was made before another by the same lane. -/
def Forward.before (a b : Forward) : Bool := a.core == b.core && a.uid == b.uid && a.lane == b.lane && decide (a.order < b.order)

/-- Records held for the same Col unit as a forward's that its lane forwarded before (R226). -/
def State.laneBefore (s : State) (fwd : Forward) (next : Nat) : List (Nat × Held) :=
  s.merges.filter fun g => g.2.fwd.before fwd && s.destination (s.heldNext g) == s.destination next

/-- Whether a packet from another die that a forward's lane sent before is still on its way to the same Col unit (R226). -/
def State.packetBefore (s : State) (die : Nat) (fwd : Forward) (next : Nat) : Bool :=
  s.packets.any fun p => !p.accepted && p.srcDie != die && p.fwd.any (fun g => g.before fwd) && s.destination p.image.next == s.destination next

/-- A record forwarded by a lane (R225, R226, R229): through the merge while its operator has a clone, or while an earlier record of the
lane is still on its way to the same Col unit. -/
def State.forwardRec (s : State) (die op r : Nat) (tags : List Nat) (lane : Nat × Nat × Nat) (merges : Bool) : State :=
  let d := s.die die
  let n := d.canon op
  let held := merges && !(d.clonesOf n).isEmpty
  let fwd : Forward := ⟨s.nextId, lane.1, lane.2.1, lane.2.2⟩
  match d.recs.find? r with
  | none => s
  | some x =>
    let t := { s with nextId := s.nextId + 1 }
    if !held && (s.laneBefore fwd x.next).isEmpty && !s.packetBefore die fwd x.next then t.sendRec die r tags (some fwd)
    else t.onDie die fun d =>
      { d.onRec r fun x => { x with place := 1 } with
        merge := d.merge ++ [⟨r, n, if held then some (hdrSeq x.hdr) else none, x.stamp, x.entered, tags, fwd, s.isLocal x.next die⟩] }

/-- Whether a record of a merge goes before another of its sequence (R229). -/
def Held.before (g h : Held) : Bool :=
  g.seq.isSome && g.seq == h.seq && g.from_ == h.from_ && stampLt g.stamp h.stamp && decide (g.entered < h.entered)

/-- The held records, by their forwards, that some of them leave after, of one lane or of one sequence, and so on: n times. -/
def State.mergeReach (s : State) : Nat → List Nat → List Nat
  | 0, r => r
  | n + 1, r =>
    let after := (s.merges.filter fun h => r.contains h.2.fwd.order).flatMap fun h =>
      (s.laneBefore h.2.fwd (s.heldNext h)).map (fun g => g.2) ++ (s.die h.1).merge.filter fun g => g.before h.2
    s.mergeReach n (r ++ (after.map fun g => g.fwd.order).filter fun i => !r.contains i)

/-- Whether a merge holds a record: an earlier one of its sequence is still with the operator (R229), an earlier one of its lane is still on
its way (R226), or one of its sequence that does not itself leave after it goes before it. -/
def State.mergeHolds (s : State) (die : Nat) (h : Held) : Bool :=
  let d := s.die die
  (h.seq.isSome && d.recs.any fun e => e.1 != h.rid && some (hdrSeq e.2.hdr) == h.seq && (e.2.place == 2 || e.2.place == 3) &&
    d.canon (e.2.next % 256) == h.from_ && stampLt e.2.stamp h.stamp && decide (e.2.entered < h.entered)) ||
  !(s.laneBefore h.fwd (s.heldNext (die, h))).isEmpty || s.packetBefore die h.fwd (s.heldNext (die, h)) ||
  d.merge.any fun g => g.before h && !(s.mergeReach s.merges.length [g.fwd.order]).contains h.fwd.order

/-- MERGE_RELEASE (R229): a held record goes on to its next operator. -/
def execMergeRelease (s : State) : Host.Outcome State Fault Refusal :=
  let die := s.turn.unit
  match (s.die die).merge.find? (fun h => h.rid == s.turn.item) with
  | none => .next s
  | some h =>
    if s.mergeHolds die h then .next s
    else happened (((s.onDie die fun d => { d with merge := d.merge.filter fun g => g.rid != h.rid }).sendRec die h.rid h.tags (some h.fwd)).noteDie die)

/-- A record parked with a code (R223, R224). -/
def Die.park (d : Die) (r code : Nat) : Die := d.onRec r fun x => { x with place := 5, code := code % 2 ^ 16, tiles := [] }

/-! ### Col units (R215 to R217) -/

/-- Whether the batching-table slot of a record is MOVING: Col units leave such a record alone (R395). -/
def Die.recMoving (d : Die) (r : Nat) : Bool :=
  match d.recs.find? r with
  | some x => match d.seqs.find? (hdrSeq x.hdr) with | some q => q.st == 3 | none => false
  | none => false

/-- The tag entries of a Col unit after a tag enters, if there is room for it (R215). -/
def enterTag (tags : List (Option Nat)) (t : Nat) : Option (List (Option Nat)) :=
  if tags.contains (some t) then some tags
  else (tags.findIdx? fun e => e.isNone).map fun i => setAt tags i (some t)

/-- The tag entries after several tags enter. -/
def enterTags (tags : List (Option Nat)) : List Nat → Option (List (Option Nat))
  | [] => some tags
  | t :: r => (enterTag tags t).bind fun g => enterTags g r

/-- The first record that waits for a Col unit and may enter. -/
def Die.firstWaiting (d : Die) (u : Nat) : Option Nat :=
  ((d.col u).waiting.find? fun r => !d.recMoving r.rid).map fun r => r.rid

/-- RECORD_ENTER_COL (R215): the first waiting record enters, with all of its rows, when there is room. -/
def execRecordEnterCol (s : State) : Host.Outcome State Fault Refusal :=
  let die := s.turn.unit
  let r := s.turn.item
  let d := s.die die
  match d.cols.find? (((d.recs.find? r).bind fun x => d.op? (d.canon (x.next % 256))).elim 0 fun o => o.home) with
  | none => .next s
  | some c =>
    let u := (((d.recs.find? r).bind fun x => d.op? (d.canon (x.next % 256))).elim 0 fun o => o.home)
    let mine := c.waiting.filter fun w => w.rid == r
    if d.firstWaiting u ≠ some r ∨ 512 < c.rows.length + mine.length then .next s
    else match enterTags c.tags (mine.map fun w => w.tag) with
      | none => .next s
      | some tags =>
        let c := { c with tags := tags, rows := c.rows ++ mine.map fun w => { w with arrived := s.clk },
                          waiting := c.waiting.filter fun w => w.rid != r }
        let d := { d with entries := d.entries + 1, cols := d.cols.put u c }.onRec r fun x => { x with place := 2, entered := d.entries + 1 }
        happened ((s.onDie die fun _ => d).noteDie die)

/-- A tag that could fire: its entry, the tag, its operator, its rows oldest first. -/
structure Candidate where
  idx : Nat
  tag : Nat
  op : OpSlot
  slot : Nat
  rows : List ColRow
deriving Repr

/-- Whether an operator stands in a frozen region: the BOUND operators of a region are (R231). -/
def Die.opFrozen (d : Die) (o : OpSlot) : Bool := o.st == 1 && (d.frozen.find? o.region).isSome
/-- Whether a Col unit is frozen: an operator of a frozen region has it as its HOME (R231, R429). -/
def Die.unitFrozen (d : Die) (u : Nat) : Bool := d.ops.any fun o => o.2.home == u && d.opFrozen o.2

/-- cand of R216; a frozen unit has none (R429). -/
def Die.candidates (d : Die) (u : Nat) : List Candidate :=
  let c := d.col u
  if d.unitFrozen u then [] else
  (mapIdxFrom (fun i t => (i, t)) 0 c.tags).filterMap fun e =>
    match e.2 with
    | none => none
    | some t =>
      let n := d.canon (t % 256)
      let rows := c.rows.filter fun r => r.tag == t
      match d.op? n with
      | some o => if rows.isEmpty || decide (64 ≤ o.ready.length) then none else some ⟨e.1, t, o, n, rows⟩
      | none => none

/-- The clk in which a candidate's oldest row arrived. -/
def Candidate.oldest (x : Candidate) : Nat := (x.rows.head?).elim 0 fun r => r.arrived
/-- The candidate with the oldest row, by lower entry on equal ages. -/
def oldestOf : List Candidate → Option Candidate
  | [] => none
  | x :: r => some (r.foldl (fun b y => if y.oldest < b.oldest then y else b) x)
/-- T of R216. -/
def Die.timedOut (d : Die) (now u : Nat) : List Candidate := (d.candidates u).filter fun x => decide (x.oldest + 64 * x.op.timeout ≤ now)

/-- fire(x, h, m) of R216. -/
def Die.fire (d : Die) (now u : Nat) (x : Candidate) (h m : Nat) : Die :=
  let c := d.col u
  let out := x.rows.take m
  let ids := out.map fun r => r.rid
  let rows := c.rows.filter fun r => !(r.tag == x.tag && ids.contains r.rid)
  let tags := if x.rows.length ≤ m then setAt c.tags x.idx none else c.tags
  let tenant := ((ids.head?).bind fun r => d.recs.find? r).elim 0 fun r => hdrTenant r.hdr
  let tile : Tile := ⟨ids, x.tag, h, tenant, now, d.entries + 1⟩
  let d := { d with entries := d.entries + 1, cols := d.cols.put u { c with rows := rows, tags := tags } }
  let d := d.onOp x.slot fun o => { o with ready := o.ready ++ [tile], firedAt := some now }
  ids.foldl (fun d r => d.onRec r fun y => { y with place := 3 }) d

/-- The smallest of 8, 16, 32, 64 not below a count; 64 above (R216). -/
def heightFor (n : Nat) : Nat := if n ≤ 8 then 8 else if n ≤ 16 then 16 else if n ≤ 32 then 32 else 64

/-- COL_FIRE_TIMEOUT (R216). -/
def execColFireTimeout (s : State) : Host.Outcome State Fault Refusal :=
  let die := s.turn.unit
  let u := s.turn.item
  match oldestOf ((s.die die).timedOut s.clk u) with
  | none => .next s
  | some x =>
    let h := heightFor x.rows.length
    happened ((s.onDie die fun d => d.fire s.clk u x h (min x.rows.length h)).noteDie die)

/-- COL_FIRE_FILL (R216): only while no tag has timed out. -/
def execColFireFill (s : State) : Host.Outcome State Fault Refusal :=
  let die := s.turn.unit
  let u := s.turn.item
  let d := s.die die
  let target (x : Candidate) : Nat := shapeOf x.op.thresholds (d.demand x.slot)
  if !(d.timedOut s.clk u).isEmpty then .next s
  else match oldestOf ((d.candidates u).filter fun x => decide (target x ≤ x.rows.length)) with
    | none => .next s
    | some x => happened ((s.onDie die fun d => d.fire s.clk u x (target x) (target x)).noteDie die)

/-! ### Adapters (R255) -/

/-- The unit that reads the adapter directory: in the address space of the operator (log 28). -/
def adapterAgent (die : Nat) (o : OpSlot) : Agent := unitAgent die o.ptroot o.vmroot

/-- A directory entry of R255: address, bytes and offset, or nothing when it cannot be read. -/
def State.adapterEntry (s : State) (die : Nat) (o : OpSlot) (tag : Nat) : Option (State × Nat × Nat × Nat) :=
  let cfg := (s.die die).adpcfg.toNat
  match s.agentGet (adapterAgent die o) 0 (bits cfg 52 12 * 4096 + (tag % 256 * 4096 + tagAdapter tag) * 16) 16 with
  | .ok r => if r.bad ≠ 0 then none else some (r.s, bits r.value 63 0, bits r.value 95 64, bits r.value 127 96)
  | .error _ => none

/-- Whether a tag has an adapter to prefetch. -/
def Die.prefetches (d : Die) (tag : Nat) : Bool := d.adpcfg.toNat.testBit 0 && tagAdapter tag != 4095

/-- Whether the directory entry of a tag's adapter cannot be read yet: its tile is placed later (R255). -/
def State.adapterBusy (s : State) (die : Nat) (o : OpSlot) (tag : Nat) : Bool :=
  (s.die die).prefetches tag &&
  match s.agentAddr (adapterAgent die o) .load (bits (s.die die).adpcfg.toNat 52 12 * 4096 + (tag % 256 * 4096 + tagAdapter tag) * 16) 16 with
  | .error .busy => true
  | _ => false

/-- Whether a directory entry keeps the layout of R255. -/
def adapterOk (n ofs : Nat) : Bool := n % 128 == 0 && decide (n ≤ 131072) && ofs % 128 == 0
/-- ADPCFG.BAD set. -/
def Die.adapterBad (d : Die) : Die := { d with adpcfg := d.adpcfg ||| 2 }

/-- Lines warmed into their slices as PREF would, from a line's address on; a fault drops the rest. -/
def State.warm (s : State) (g : Agent) : Nat → Nat → State
  | 0, _ => s
  | n + 1, va =>
    match s.agentAddr g .load va 1 with
    | .ok (s, pa, _) => (s.touchLine pa 0 15 0 false).warm g n (va + 128)
    | .error _ => s

/-- ADAPTER_PREFETCH_WARM (R255). -/
def execAdapterPrefetchWarm (s : State) : Host.Outcome State Fault Refusal :=
  let die := s.turn.unit
  let tags := ((s.die die).col s.turn.item).tags.filterMap id
  happened (tags.foldl (fun s t =>
    if !(s.die die).prefetches t then s
    else match (s.die die).op? ((s.die die).canon (t % 256)) with
      | none => s
      | some o => match s.adapterEntry die o t with
        | none => s
        | some (s, a, n, ofs) =>
          if !adapterOk n ofs then s.onDie die Die.adapterBad
          else s.warm (adapterAgent die o) (if n = 0 then 0 else (a % 128 + n + 127) / 128) (a / 128 * 128)) s)

/-! ### Dispatch (R76, R218, R219) -/

/-- q(i) (R220). -/
def Die.quantum (d : Die) (i : Nat) : Nat := max 1 (bits ((d.tenq[i / 8]?).getD 0).toNat (8 * (i % 8) + 7) (8 * (i % 8)))

/-- Where a tile of an operator may go: the place of a role in the order tried, the core, and the slot bound there (R218, R228). -/
def Die.placesOf (d : Die) (n : Nat) (o : OpSlot) : List (Nat × Nat × Nat) :=
  let of (b slot : Nat) (rs : List (Option Nat)) : List (Nat × Nat × Nat) :=
    (mapIdxFrom (fun i r => (i, r)) 0 rs).filterMap fun e => e.2.map fun c => (b + e.1, c, slot)
  let clones := (d.clonesOf n).filter fun c => c.2.st == 1
  let all := of 0 n o.roles ++ (mapIdxFrom (fun i (c : Nat × OpSlot) => of (16 * (i + 1)) c.1 c.2.roles) 0 clones).flatten
  (all.filter fun p => decide (o.lastRole < p.1)) ++ all.filter fun p => decide (p.1 ≤ o.lastRole)

/-- Whether a core has room for a tile group of an operator and its companions (R80, R218). -/
def Core.roomFor (k : Core) (o : OpSlot) : Bool :=
  decide (k.groups.length + o.groups ≤ 24) && decide (k.inSlot o.ctxslot + o.groups ≤ k.gmax o.ctxslot) &&
  decide (o.groups * (o.window / 32) ≤ k.freeGranules.length)

/-- The core a tile of an operator can be placed on now. -/
def State.placeOf (s : State) (die n : Nat) (o : OpSlot) : Option (Nat × Nat × Nat) :=
  ((s.die die).placesOf n o).find? fun p => (s.core p.2.1).roomFor o

/-- The oldest-fired ready tile of a tenant that can be placed, with its operator and its place (R218, R219). -/
def State.placeable (s : State) (die i : Nat) : Option (Nat × OpSlot × Tile × Nat × Nat × Nat) :=
  let d := s.die die
  let all := d.ops.flatMap fun o =>
    if d.opFrozen o.2 then [] else (o.2.ready.filter fun t => t.tenant == i && !s.adapterBusy die o.2 t.tag).filterMap fun t =>
      (s.placeOf die o.1 o.2).map fun p => (o.1, o.2, t, p)
  match all with
  | [] => none
  | a :: r => some (r.foldl (fun b y => if y.2.2.1.order < b.2.2.1.order then y else b) a)

/-- The group of a placed tile (R76, R218): its rows' releases are acquired (R226). -/
def tileGroup (d : Die) (k : Core) (now : Nat) (o : OpSlot) (slot : Nat) (t : Tile) : Group :=
  let v := (stampOf? (t.rows.filterMap fun r => (d.recs.find? r).map fun x => x.release)).getD 0
  { Group.empty with
    lanes := List.replicate 32 { Lane.empty with live := true, pc := BitVec.ofNat 53 o.entry, c := v, h := v, p := v, startCheck := true },
    opid := slot, tenant := t.tenant, rows := t.rows.length, tileh := t.height,
    tile := (t.rows.map TileRow.held ++ List.replicate (t.height - t.rows.length) TileRow.pad), tileTag := t.tag,
    tileFired := t.fired, tileOrder := t.order, fpctl := o.fpctl, idem := o.idem, frozenSlot := (k.frozen.find? o.ctxslot).map fun _ => now }

/-- The adapter of a placed tile copied into its partition by a copy engine; its lanes wait for the copy (R255). -/
def State.copyAdapter (s : State) (die core gid : Nat) (o : OpSlot) (tag : Nat) : State :=
  if !(s.die die).prefetches tag then s
  else match s.adapterEntry die o tag with
    | none => s.onDie die Die.adapterBad
    | some (s, a, n, ofs) =>
      if !adapterOk n ofs ∨ (s.core core).partSize o.ctxslot < ofs + n then s.onDie die Die.adapterBad
      else if n = 0 then s
      else
        let x := s.group core gid
        let r : EngReq :=
          { id := s.nextId, core := core, gid := gid, uid := x.uid, slot := o.ctxslot, lane := 0, mode := .u, pc := o.entry, seqno := 0,
            kind := .adapter, tag := none, errTag := none, dst := (s.core core).partBase o.ctxslot + ofs, src := a, bytes := n, done := 0,
            phys := false, targets := [], arrive := none, stamp := (x.lane 0).c, fault := none, ended := false, moving := false,
            zeroed := none, irrev := false }
        ({ s with nextId := s.nextId + 1 }.onDie die fun d => { d with engine := d.engine ++ [r] }).onGroup core gid fun x =>
          x.onLanes (List.range 32) fun _ k => { k with wait := .reply r.id }

/-- A tile placed: its group is created (R76, R218). -/
def State.placeTile (s : State) (die n : Nat) (o : OpSlot) (t : Tile) (role core slot : Nat) : State :=
  let s := s.onDie die fun d =>
    t.rows.foldl (fun d r => d.onRec r fun x => { x with tiles := slot :: x.tiles })
      (d.onOp n fun o => { o with ready := o.ready.filter fun u => u.order != t.order, lastRole := role })
  let (k, gid) := (s.core core).create s.nextId o.ctxslot (o.window / 32) fun _ => tileGroup (s.die die) (s.core core) s.clk o slot t
  ({ s.setCore core k with nextId := s.nextId + 1 }).copyAdapter die core gid o t.tag

/-- Tenant classes with a ready tile, in the order visited (R219). -/
def Die.tenantsReady (d : Die) : List Nat :=
  let has (i : Nat) : Bool := d.ops.any fun o => o.2.ready.any fun t => t.tenant == i
  let ls := (List.range 64).filter has
  (ls.filter fun i => decide (d.lastTenant < i)) ++ ls.filter fun i => decide (i ≤ d.lastTenant)

/-- A tenant's tile placed at the cost of one unit of its deficit. -/
def State.placeFor (s : State) (die i deficit : Nat) (p : Nat × OpSlot × Tile × Nat × Nat × Nat) : State :=
  let (n, o, t, role, core, slot) := p
  let s := s.placeTile die n o t role core slot
  let more := (s.die die).tenantsReady.contains i
  (s.onDie die fun d => { d with lastTenant := i, deficits := d.deficits.put i (if more then deficit - 1 else 0) }).noteDie die

/-- DISPATCH_PLACE (R218, R219): one placement; the tenant being visited goes on while its deficit lasts and one of its tiles can be
placed, then the next is visited. DESIGN CHOICE: a tenant of whose tiles none could be placed is not the one last visited (log 80). -/
def execDispatchPlace (s : State) : Host.Outcome State Fault Refusal :=
  let die := s.turn.unit
  let d := s.die die
  let i := d.lastTenant
  let left := (d.deficits.find? i).getD 0
  match (if 1 ≤ left then s.placeable die i else none) with
  | some p => happened (s.placeFor die i left p)
  | none =>
    match d.tenantsReady.findSome? fun j => (s.placeable die j).map fun p => (j, p) with
    | none => if left = 0 then .next s else happened (s.onDie die fun d => { d with deficits := d.deficits.put i 0 })
    | some (j, p) =>
      let q := d.quantum j
      happened (s.placeFor die j (min ((d.deficits.find? j).getD 0 + q) q) p)

/-! ### Token packets (R227) -/

/-- The record that a 128-byte image holds (R205), for a packet of another package: one row; its release lies in the bytes from 0x48 on,
which hardware holds (R226, log 29). -/
def recOfImage (v : Nat) : Rec :=
  { place := 1, code := 0, hdr := bits v 127 64, tag := bits v 159 128, next := bits v 191 160, stamp := bits v 231 192,
    act := bits v 319 256, samp := bits v 383 320, pen := bits v 447 384, join := 1, joinNext := none, release := bits v 615 576,
    entered := 0, tiles := [] }

/-- A record received on a die: a new id, and its operator's Col unit, or parked with NOOP where that is not BOUND (R227). -/
def State.receive (s : State) (die : Nat) (x : Rec) (tags : List Nat) : State :=
  let r := s.takeRec die
  let bound := (s.die die).isBound (x.next % 256)
  let s := s.draw.onDie die fun d => { d with recs := d.recs.put r { x with place := 1, entered := 0 } }
  (s.onDie die fun d => if bound then d.enqueue r tags else d.park r 0xFFFD).noteDie die

/-- The rows that a packet of another package enters as (R225): from bytes 0x38 on, which hardware holds, its join count and that many
experts (log 29). -/
def tagsOfImage (v : Nat) : List Nat :=
  let x := recOfImage v
  let k := min 8 (bits v 455 448)
  if k ≤ 1 then [x.tag]
  else ((List.range k).map fun i => mkTag (tagAdapter x.tag) (v / 2 ^ (456 + 8 * i) % 256) x.next).foldl (fun r t => if r.contains t then r else r ++ [t]) []

/-- A packet for a die of this package taken from its link, in the order sent, once an id is free (R209, R227). One from another package has
no sender here that waits for its acceptance. -/
def State.acceptPacket (s : State) (die id : Nat) : State :=
  match s.packets.find? (fun p => p.id == id) with
  | none => s
  | some p =>
    let before := s.packets.any fun q => decide (q.id < p.id) && q.srcDie == p.srcDie && q.pkg == p.pkg && q.die == p.die && !q.accepted
    if p.accepted ∨ p.pkg ≠ s.pkg ∨ p.die ≠ die ∨ before ∨ (s.die die).freeRecs = 0 then s
    else
      let packets := if p.srcDie < 4 then s.packets.map fun q => if q.id = p.id then { q with accepted := true } else q
        else s.packets.filter fun q => q.id != p.id
      { s with packets := packets }.receive die p.image p.tags

/-- A packet of another package put into the receive buffer of its link (R209). -/
def State.bufferPacket (s : State) (die link v : Nat) : State :=
  let tags := tagsOfImage v
  let p : Packet := ⟨s.nextId, 4 + link, 0, s.pkg, die, { recOfImage v with join := tags.length }, tags, false, none⟩
  { s with nextId := s.nextId + 1, packets := s.packets ++ [p] }

/-- Whether a message request can come over a PSL port: the ports are enabled, and it is up (R441, R442). -/
def State.portUp (s : State) (link : Nat) : Bool := s.pkgcfg.toNat.testBit 0 && decide (link < 18) && s.pslstat.toNat.testBit link

/-- TOKEN_PACKET_ARRIVE (R209, R227): a packet between dies, or one that stands in a receive buffer; or the image in `value` comes from
another package over the PSL port `item` (R441). -/
def execTokenPacketArrive (s : State) : Host.Outcome State Fault Refusal :=
  let die := s.turn.unit
  if s.turn.flag then
    if s.portUp s.turn.item then happened ((s.woken.bufferPacket die s.turn.item s.turn.value).acceptPacket die s.nextId) else .next s
  else happened (s.acceptPacket die s.turn.item)

/-- TOKEN_PACKET_ACK (R227): the sender frees its id; another package has accepted what was sent to it, over a port that is up (R441). -/
def execTokenPacketAck (s : State) : Host.Outcome State Fault Refusal :=
  let die := s.turn.unit
  match s.packets.find? (fun p => p.id == s.turn.item) with
  | none => .next s
  | some p =>
    if p.srcDie ≠ die ∨ (if p.pkg = s.pkg then !p.accepted else (s.portFor 0).isNone) then .next s
    else
      let packets := s.packets.filter fun q => q.id != p.id
      happened (({ s with packets := packets }.onDie die fun d => { d with recs := d.recs.erase p.srcRec }).noteDie die)

/-! ### The stall watch and freezing of a region (R231, R429) -/

/-- A group changed wherever it stands on the cores of a die. -/
def State.mapDieGroups (s : State) (die : Nat) (f : Group → Group) : State :=
  { s with cores := s.cores.map fun k => if dieOf k.1 = die then (k.1, k.2.mapGroups f) else k }

/-- Whether a group is a tile group of an operator of a region: of a BOUND one (R231). -/
def Die.inRegion (d : Die) (region : Nat) (x : Group) : Bool :=
  x.tileh != 0 && match d.op? x.opid with | some o => o.st == 1 && o.region == region | none => false

/-- The sequencer work of the frozen groups of a die interrupted (R190). -/
def State.interruptFrozen (s : State) (die : Nat) : State :=
  { s with cores := s.cores.map fun k => if dieOf k.1 = die then (k.1, k.2.interrupt k.2.opFrozen) else k }

/-- A region frozen (R190, R429). -/
def State.freezeRegion (s : State) (die region : Nat) : State :=
  if ((s.die die).frozen.find? region).isSome then s
  else
    let d := s.die die
    ((s.onDie die fun d => { d with frozen := d.frozen.put region s.clk }).mapDieGroups die fun x =>
      if d.inRegion region x then { x with frozenRegion := some s.clk } else x).interruptFrozen die

/-- A region thawed (R429): the stall watch begins its interval anew. -/
def State.thawRegion (s : State) (die region : Nat) : State :=
  if ((s.die die).frozen.find? region).isNone then s
  else
    let d := s.die die
    let thaw (d : Die) : Die :=
      { d with frozen := d.frozen.erase region, busySince := d.busySince.map fun b => if b.1 = region then (b.1, s.clk) else b }
    (s.onDie die thaw).mapDieGroups die fun x => if d.inRegion region x then { x with frozenRegion := none } else x

/-- An entry of the occupancy map (R231); an operator that has never fired has a free value in place of the clk since (log 2). -/
def State.occupancy (s : State) (die n : Nat) (o : OpSlot) : Nat :=
  let d := s.die die
  let groups := s.cores.foldl (fun a k => if dieOf k.1 = die then a + (k.2.groups.filter fun g => g.2.tileh != 0 && g.2.opid == n).length else a) 0
  let parked := (d.recs.filter fun r => r.2.place == 5 && s.isLocal r.2.next die && r.2.next % 256 == n).length
  d.storeRows n % 2 ^ 32 + (d.rowsOf n).length % 2 ^ 16 * 2 ^ 32 + o.ready.length * 2 ^ 48 + groups * 2 ^ 64 +
  min parked 65535 * 2 ^ 80 +
  o.firedAt.elim (Config.sinceFired s.free n).toNat (fun t => min (s.clk - t) (2 ^ 32 - 1)) * 2 ^ 96

/-- The occupancy map of a region (R231). -/
def State.occupancyMap (s : State) (die region : Nat) : Nat :=
  (s.die die).ops.foldl (fun v o => if o.2.st = 1 ∧ o.2.region = region then v + s.occupancy die o.1 o.2 * 2 ^ (128 * o.1) else v) 0

/-- STALL_WATCH_HANG (R231, R430). -/
def execStallWatchHang (s : State) : Host.Outcome State Fault Refusal :=
  let die := s.turn.unit
  let region := s.turn.item
  let d := s.die die
  let cfg := d.stallcfg.toNat
  let t := bits cfg 63 52 * 65536
  let ops := d.ops.filter fun o => o.2.st == 1 && o.2.region == region
  let since := d.busySince.find? region
  if !bit cfg 0 ∨ t = 0 ∨ (d.frozen.find? region).isSome ∨ ops.isEmpty ∨ ops.any (fun o => o.2.firedAt.any fun f => decide (s.clk < f + t)) ∨
     since.elim true (fun b => decide (s.clk < b + t)) then .next s
  else
    let map := bits cfg 51 12 * 4096
    if (List.range 32).any fun i => s.slotFull (map + 128 * i) 128 then .next s
    else
      let v := s.occupancyMap die region
      let s := (List.range 32).foldl (fun s i => s.unitWrite (map + 128 * i) 128 (v / 256 ^ (128 * i) % 256 ^ 128)) (s.freezeRegion die region)
      happened (s.draw.onDie die fun d => { d with hangs := d.hangs ++ [(region, map)] })

/-! ### Lanes in ascending order (R234) -/

/-- Lanes act in ascending order; a failing lane changes nothing and gives the trap it takes. -/
def State.laneFold (f : State → Nat → Except TrapInfo State) (s : State) : List Nat → State × List (Nat × TrapInfo)
  | [] => (s, [])
  | l :: ls =>
    match f s l with
    | .error t => let r := s.laneFold f ls; (r.1, (l, t) :: r.2)
    | .ok s' => s'.laneFold f ls

/-- The traps of lanes, each its own. -/
def State.trapLanes (s : State) (c : Ctx) (fails : List (Nat × TrapInfo)) : State :=
  s.enterTraps c.core c.gid (fun l => ((fails.find? fun e => e.1 == l).map fun e => e.2).getD ⟨5, 0, c.pc, 0, 0, none⟩)
    (fails.map fun e => e.1)

/-- The effect of an instruction whose failing lanes trap, no lane having an effect (R234); it stalls where a lane could not release. Each
lane reads its operands from the group as it stood at issue (R62). -/
def State.lanesAct (s : State) (c : Ctx) (stalls : State → Ctx → Bool) (f : Ctx → Group → State → Nat → Except TrapInfo State) : Issued :=
  let r := s.laneFold (f c (s.grp c)) c.act
  if !r.2.isEmpty then .done (s.trapLanes c r.2)
  else if stalls s c then .stall
  else .done (r.1.advance c)

/-- An instruction whose lanes act in ascending order. -/
def State.laneOps (s : State) (uses : List Use) (stalls : State → Ctx → Bool) (f : Ctx → Group → State → Nat → Except TrapInfo State) :
    Host.Outcome State Fault Refusal :=
  s.issue uses fun s c => s.lanesAct c stalls f

/-- Whether some lane of an instruction cannot release at domain scope yet (R226, R298). -/
def State.cannotRelease (s : State) (c : Ctx) : Bool := !s.mayRelease c.core c.gid 3 c.act

/-- The token trap (R234, R409). -/
def tokenTrap (c : Ctx) (cause row : Nat) : TrapInfo := ⟨12, cause, c.pc, row, 0, none⟩
/-- The illegal-operand trap of a lane. -/
def operandTrap (c : Ctx) : TrapInfo := ⟨6, 0, c.pc, 0, 0, none⟩
/-- The privilege fault of a lane. -/
def privTrap (c : Ctx) : TrapInfo := ⟨8, 0, c.pc, 0, 0, none⟩

/-- The record of the row that a row operand names, if the row is held (R234). -/
def Group.heldRow (x : Group) (w : Nat) : Except Nat Nat :=
  if x.tile.isEmpty then .error 1
  else if 64 ≤ w ∨ x.tileh ≤ w then .error 2
  else match x.tile[w]? with
    | some (.held r) => .ok r
    | _ => .error 2

/-- The die and record that a record id names, if it is PARKED (R236, R237). -/
def State.parkedRec (s : State) (id : Nat) : Option (Nat × Nat) :=
  let die := bits id 21 20
  let r := id % 2 ^ 20
  if id < 2 ^ 22 then
    match (s.die die).recs.find? r with
    | some x => if x.place = 5 then some (die, r) else none
    | none => none
  else none

/-- A lane's release at domain scope (R226, R298): its clock ticks. -/
def State.tickLane (s : State) (c : Ctx) (l : Nat) : State := s.onLane c.core c.gid l fun k => { k with c := stampNext k.c }

/-! ### RHDR (R235) -/

/-- Whether a field of RHDR has 64 bits. -/
def rhdrWide (fn : Nat) : Bool := fn == 0 || decide (4 ≤ fn)

/-- A field of a record (R205). -/
def Rec.field (x : Rec) (id fn : Nat) : Nat :=
  match fn with | 0 => x.hdr | 1 => x.tag | 2 => id | 3 => x.next | 4 => x.act | 5 => x.samp | 6 => x.pen | _ => x.stamp

/-- What RHDR reads for a row; a pad row's header is zero and its id all ones (R217), its other fields are free (log 2). -/
def State.rhdr (s : State) (c : Ctx) (fn w l : Nat) : Except Nat Nat :=
  let x := s.grp c
  if x.tile.isEmpty then .error 1
  else if 64 ≤ w ∨ x.tileh ≤ w then .error 2
  else match x.tile[w]? with
    | some (.held r) =>
      let y := ((s.die (dieOf c.core)).recs.find? r).getD (recOfImage 0)
      .ok (if fn = 1 then x.tileTag else y.field (dieOf c.core * 2 ^ 20 + r) fn)
    | some .pad => .ok (if fn = 0 then 0 else if fn = 2 then 0xFFFFFFFF else (Config.padField s.free l).toNat)
    | _ => .error 2

/-- RHDR (R235). -/
def execRhdr (f : F3) (s : State) : Host.Outcome State Fault Refusal :=
  let wide := rhdrWide f.fn.toNat
  s.issue [dstW wide f.d, src32 f.a] fun s c =>
    let x := s.grp c
    let v (l : Nat) : Except Nat Nat := s.rhdr c f.fn.toNat (x.rd32 f.a l) l
    let fails := c.act.filterMap fun l => match v l with | .error e => some (l, tokenTrap c e (x.rd32 f.a l)) | .ok _ => none
    if !fails.isEmpty then .done (s.trapLanes c fails)
    else .done (((s.advance c).onGrp c fun x => x.wr c f.d wide fun l => match v l with | .ok n => n | .error _ => 0).draw)

/-- RHDR.FLAGS (R235). -/
def execRhdrFlags (f : F3) (s : State) : Host.Outcome State Fault Refusal :=
  s.laneOps [src32 f.a, src32 f.b] (fun _ _ => false) fun c x s l =>
    let w := x.rd32 f.a l
    let b := x.rd32 f.b l
    if 32 ≤ b then .error (operandTrap c)
    else if x.tile.isEmpty then .error (tokenTrap c 1 w)
    else if 64 ≤ w ∨ x.tileh ≤ w then .error (tokenTrap c 2 w)
    else match x.tile[w]? with
      | some (.held r) => .ok (s.onDie (dieOf c.core) fun d => d.onRec r fun y => { y with hdr := y.hdr ||| b * 2 ^ 58 })
      | some .pad => .ok s
      | _ => .error (tokenTrap c 2 w)

/-! ### TKFWD (R225, R226, R236) -/

/-- A list without repeats, first occurrences in order. -/
def distinct : List Nat → List Nat
  | [] => []
  | a :: r => a :: (distinct r).filter fun b => b != a

/-- The experts a TKFWD names (R236). -/
def fwdExperts (f : F3) (x : Group) (l : Nat) : List Nat :=
  let k := f.fn.toNat
  if 1 ≤ k ∧ k ≤ 8 then
    let run := x.rdRegs f.c l k
    match (distinct ((List.range k).map fun i => run / 2 ^ (32 * i) % 256)).filter fun e => e != 255 with
    | [] => [255]
    | es => es
  else [255]

/-- A record's new NEXT, ACT and tag under R236, with the rows' tags. -/
def Rec.forwarded (y : Rec) (n : Nat) (act : Option Nat) (adapter : Nat) (experts : List Nat) (release : Nat) : Rec × List Nat :=
  let tags := experts.map fun e => mkTag adapter e n
  ({ y with next := n, act := act.getD y.act, tag := tags.headD 0, join := experts.length, joinNext := none, code := 0, tiles := [],
            release := stampMax y.release release }, tags)

/-- One lane of TKFWD. -/
def State.fwdLane (s : State) (f : F3) (c : Ctx) (x : Group) (l : Nat) : Except TrapInfo State :=
  let die := dieOf c.core
  let w := x.rd32 f.a l
  let n := x.rd32 f.b l
  match (s.grp c).heldRow w with
  | .error e => .error (tokenTrap c e w)
  | .ok r =>
    let y := ((s.die die).recs.find? r).getD (recOfImage 0)
    if s.isLocal n die && !(s.die die).isBound (n % 256) then .error (tokenTrap c 3 w)
    else if y.joinNext.elim false (fun m => m != n) then .error (tokenTrap c 4 w)
    else
      let s := s.tickLane c l
      let st := ((s.grp c).lane l).c
      let s := (s.onGrp c fun x => { x with tile := setAt x.tile w (.gone r), idem := false }).onDie die fun d => d.cancelPredictions r
      if 1 < y.join then
        .ok ((s.onDie die fun d => d.onRec r fun y => { y with join := y.join - 1, joinNext := some n, tiles := y.tiles.erase x.opid, release := stampMax y.release st }).noteDie die)
      else
        let act := if f.d = .none then none else some (x.rd64 f.d l)
        let adapter := if f.fn = 0x10 then bits (x.rd32 f.c l) 11 0 else tagAdapter y.tag
        let (y, tags) := y.forwarded n act adapter (fwdExperts f x l) st
        .ok (((s.onDie die fun d => d.onRec r fun _ => y).forwardRec die x.opid r tags (c.core, x.uid, l) true).noteDie die)

/-- TKFWD (R236). -/
def execTkfwd (f : F3) (s : State) : Host.Outcome State Fault Refusal :=
  let k := f.fn.toNat
  let cUse := if f.fn = 0 then [] else if k ≤ 8 then [{ srcRun f.c k false with noneOk := false }] else [src32 f.c]
  s.laneOps ([src64 f.d, src32 f.a, src32 f.b] ++ cUse) State.cannotRelease fun c x s l => s.fwdLane f c x l

/-- One lane of TKFWD.ID. DESIGN CHOICE: for a record of another die, a NEXT of that die is the local one (log 80). -/
def State.fwdIdLane (s : State) (f : F3) (c : Ctx) (x : Group) (l : Nat) : Except TrapInfo State :=
  let w := x.rd32 f.a l
  let n := x.rd32 f.b l
  match s.parkedRec w with
  | none => .error (tokenTrap c 2 w)
  | some (die, r) =>
    let y := ((s.die die).recs.find? r).getD (recOfImage 0)
    if s.isLocal n die && !(s.die die).isBound (n % 256) then .error (tokenTrap c 3 w)
    else
      let s := s.tickLane c l
      let act := if f.d = .none then none else some (x.rd64 f.d l)
      let (y, tags) := y.forwarded n act (tagAdapter y.tag) [255] ((s.grp c).lane l).c
      let s := (s.notIdem c).onDie die fun d => (d.onRec r fun _ => y).cancelPredictions r
      .ok ((s.forwardRec die 0 r tags (c.core, x.uid, l) false).noteDie die)

/-- TKFWD.ID (R236): a PARKED record goes on, through no merge. -/
def execTkfwdId (f : F3) (s : State) : Host.Outcome State Fault Refusal :=
  s.issueWith [] [src64 f.d, src32 f.a, src32 f.b] (fun c _ => decide (c.mode ≠ .u)) fun s c =>
    s.lanesAct c State.cannotRelease fun c x s l => s.fwdIdLane f c x l

/-! ### TKPARK, TKDONE (R224, R237, R394) -/

/-- TKPARK (R237). -/
def execTkpark (f : F3) (s : State) : Host.Outcome State Fault Refusal :=
  s.laneOps [src32 f.a, src32 f.b] State.cannotRelease fun c x s l =>
    let die := dieOf c.core
    let w := x.rd32 f.a l
    let code := x.rd32 f.b l % 2 ^ 16
    match (s.grp c).heldRow w with
    | .error e => .error (tokenTrap c e w)
    | .ok r =>
      if 1 < ((s.die die).recs.find? r).elim 0 (fun y => y.join) then .error (tokenTrap c 4 w)
      else if c.mode = .u ∧ 0xFFF0 ≤ code then .error (tokenTrap c 5 w)
      else
        let s := s.tickLane c l
        let st := ((s.grp c).lane l).c
        let s := s.onGrp c fun x => { x with tile := setAt x.tile w .pad, idem := false }
        .ok ((s.onDie die fun d =>
          ((d.park r code).onRec r fun y => { y with release := stampMax y.release st }).cancelPredictions r).noteDie die)

/-- The end of a sequence (R394): a LIVE slot becomes ENDED, and its DONE word is written as a release. -/
def State.endSeq (s : State) (c : Ctx) (l die slot code : Nat) : State :=
  match (s.die die).seqs.find? slot with
  | none => s
  | some q =>
    if q.st ≠ 1 then s
    else
      let s := s.onDie die fun d => { d with seqs := d.seqs.put slot { q with st := 2, code := code } }
      if q.done = 0 then s
      else
        let fm : FM := ⟨0, 3, 0, 2, 3, .none, .none, .none, .none, 0⟩
        s.addAccess { s.newAccess c l fm .store (q.done % 2 ^ 53) 8 .none 0 with data := 2 ^ 63 + slot * 2 ^ 16 + code }

/-- A record freed by a lane, with its sequence ended where the form says so. -/
def State.doneRec (s : State) (c : Ctx) (l die r : Nat) (code : Option Nat) : State :=
  let seq := ((s.die die).recs.find? r).elim 0 fun y => hdrSeq y.hdr
  let s := ((s.tickLane c l).notIdem c).onDie die fun d => ({ d with recs := d.recs.erase r }).cancelPredictions r
  let s := match code with | some v => s.endSeq c l die seq v | none => s
  s.noteDie die

/-- One lane of TKDONE or TKDONE.END. -/
def State.doneLane (s : State) (f : F3) (c : Ctx) (x : Group) (ends : Bool) (l : Nat) : Except TrapInfo State :=
  let die := dieOf c.core
  let w := x.rd32 f.a l
  match (s.grp c).heldRow w with
  | .error e => .error (tokenTrap c e w)
  | .ok r =>
    if 1 < ((s.die die).recs.find? r).elim 0 (fun y => y.join) then .error (tokenTrap c 4 w)
    else
      let code := if ends then some (x.rd32 f.b l % 2 ^ 16) else none
      .ok ((s.onGrp c fun x => { x with tile := setAt x.tile w (.gone r) }).doneRec c l die r code)

/-- One lane of TKDONE.ID or TKDONE.END.ID. -/
def State.doneIdLane (s : State) (f : F3) (c : Ctx) (x : Group) (ends : Bool) (l : Nat) : Except TrapInfo State :=
  let w := x.rd32 f.a l
  match s.parkedRec w with
  | none => .error (tokenTrap c 2 w)
  | some (die, r) => .ok (s.doneRec c l die r (if ends then some (x.rd32 f.b l % 2 ^ 16) else none))

/-- The issue of a .ID form of TKDONE, S and H mode only. -/
def State.doneId (s : State) (f : F3) (ends : Bool) : Host.Outcome State Fault Refusal :=
  s.issueWith [] [src32 f.a, src32 f.b] (fun c _ => decide (c.mode ≠ .u)) fun s c =>
    s.lanesAct c State.cannotRelease fun c x s l => s.doneIdLane f c x ends l

/-- TKDONE (R237). -/
def execTkdone (f : F3) (s : State) : Host.Outcome State Fault Refusal :=
  s.laneOps [src32 f.a, src32 f.b] State.cannotRelease fun c x s l => s.doneLane f c x false l
/-- TKDONE.END (R237, R394). -/
def execTkdoneEnd (f : F3) (s : State) : Host.Outcome State Fault Refusal :=
  s.laneOps [src32 f.a, src32 f.b] State.cannotRelease fun c x s l => s.doneLane f c x true l
/-- TKDONE.ID (R237). -/
def execTkdoneId (f : F3) (s : State) : Host.Outcome State Fault Refusal := s.doneId f false
/-- TKDONE.END.ID (R237, R394). -/
def execTkdoneEndId (f : F3) (s : State) : Host.Outcome State Fault Refusal := s.doneId f true

/-! ### TKNEW (R209, R238) -/

/-- One lane of TKNEW. -/
def State.newRec (s : State) (f : F3) (c : Ctx) (x : Group) (l : Nat) : Except TrapInfo State :=
  let die := dieOf c.core
  let d := s.die die
  let hdr := x.rd64 f.a l
  let tag := x.rd32 f.b l
  match d.seqs.find? (hdrSeq hdr) with
  | none => .error (tokenTrap c (if !d.isBound (tag % 256) then 3 else if hdrKind hdr = 0 ∨ 2 ^ 28 ≤ tag then 6 else 7) 0)
  | some q =>
    if !d.isBound (tag % 256) then .error (tokenTrap c 3 0)
    else if hdrKind hdr = 0 ∨ 2 ^ 28 ≤ tag then .error (tokenTrap c 6 0)
    else if q.st ≠ 1 ∧ q.st ≠ 3 then .error (tokenTrap c 7 0)
    else
      let s := (s.tickLane c l).notIdem c
      let st := ((s.grp c).lane l).c
      let r := s.takeRec die
      let y : Rec :=
        { place := 1, code := 0, hdr := hdr, tag := tag, next := mkNext s.pkg die (tag % 256), stamp := st, act := x.rd64 f.c l,
          samp := q.samp, pen := q.pen, join := 1, joinNext := none, release := st, entered := 0, tiles := [] }
      let s := s.draw.onDie die fun d => { d with recs := d.recs.put r y }.enqueue r [tag]
      let keep := match f.d with | .s _ => l == c.low | _ => true
      .ok ((if keep then s.onGrp c fun x => x.put32 f.d l (die * 2 ^ 20 + r) else s).noteDie die)

/-- Whether TKNEW stalls (R209, R391): too few free ids for its rows, or a slot that is MOVING. -/
def State.newStalls (s : State) (f : F3) (c : Ctx) : Bool :=
  let x := s.grp c
  let d := s.die (dieOf c.core)
  let kinds := c.act.map fun l => hdrKind (x.rd64 f.a l)
  let short := (mapIdxFrom (fun i k => decide (d.freeRecs - i < if k = 1 then 4096 else 1)) 0 kinds).any id
  let moving := c.act.any fun l => match d.seqs.find? (hdrSeq (x.rd64 f.a l)) with | some q => q.st == 3 | none => false
  short || moving || s.cannotRelease c

/-- TKNEW (R238). -/
def execTknew (f : F3) (s : State) : Host.Outcome State Fault Refusal :=
  s.laneOps [dst32 f.d, src64 f.a, src32 f.b, src64 f.c] (fun s c => s.newStalls f c) fun c x s l => s.newRec f c x l

/-! ### GATEK (R232, R239) -/

/-- A logit's place in the arrival order before another's (R232): +∞ first, −∞ last, the lower expert on a tie. -/
def arrivesBefore (a b : Nat × Num) : Bool :=
  match b.2.cmp a.2 with
  | .lt => true
  | .eq => decide (a.1 < b.1)
  | .gt => false

/-- An expert put into the order of arrival. -/
def insertArrival (a : Nat × Num) : List (Nat × Num) → List (Nat × Num)
  | [] => [a]
  | b :: r => if arrivesBefore a b then a :: b :: r else b :: insertArrival a r

/-- e^−t for t = m·2^e ≥ 0 in fixed point of p fraction bits: an enclosure; exact at 0. -/
def expNeg (p m : Nat) (e : Int) : Encl :=
  if m = 0 then ⟨2 ^ p, 2 ^ p⟩
  else
    let lo := toFix p m e
    if p * 2 ^ p ≤ lo then ⟨0, 1⟩
    else
      let (k, x) := expFix p lo (lo + 1)
      ⟨2 ^ (2 * p) / (x.hi * 2 ^ k), 2 ^ (2 * p) / (x.lo * 2 ^ k) + 1⟩

/-- The distance of a finite value below the largest: mantissa and exponent. -/
def below (m x : Num) : Nat × Int :=
  match sumNum .rne [m, x.neg] with
  | .fin _ n e => (n, e)
  | _ => (0, 0)

/-- The softmax weight of one of the chosen finite logits (R232), correctly rounded; −∞ has weight +0. -/
def gateWeight (m x : Num) (chosen : List Num) : Nat × Flags :=
  match x with
  | .fin _ _ _ =>
    let finite := chosen.filter fun y => match y with | .fin _ _ _ => true | _ => false
    if finite.all fun y => (below m y).1 == 0 then recip fp32 false finite.length 0
    else
      refine fp32 false (fun p =>
        let terms := finite.map fun y => let t := below m y; expNeg (p + 32) t.1 t.2
        let lo := terms.foldl (fun a t => a + t.lo.toNat) 0
        let hi := terms.foldl (fun a t => a + t.hi.toNat) 0
        let t := below m x
        let n := expNeg (p + 32) t.1 t.2
        ⟨n.lo.toNat * 2 ^ (p + 32) / hi, n.hi.toNat * 2 ^ (p + 32) / lo + 1, -((p : Int) + 32)⟩) precisions
  | _ => (0, .none)

/-- gatek(l) of R232: the chosen experts with their weights and flags, and whether a logit was NaN. -/
def gatek (k : Nat) (xs : List Num) : List (Nat × Nat × Flags) × Bool :=
  let es := mapIdxFrom (fun i x => (i, x)) 0 xs
  let ranked := (es.filter fun e => e.2 != .nan).foldl (fun r a => insertArrival a r) []
  let c := ranked.take k
  let vals := c.map fun e => e.2
  let infs := (vals.filter fun v => v == .inf false).length
  let weight (x : Num) : Nat × Flags :=
    if infs ≠ 0 then (if x = .inf false then recip fp32 false infs 0 else (0, .none))
    else if vals.all fun v => v == .inf true then recip fp32 false c.length 0
    else gateWeight ((vals.head?).getD .nan) x vals
  (c.map fun e => let w := weight e.2; (e.1, w.1, w.2), es.any fun e => e.2 == .nan)

/-- The results of GATEK for a lane: 2k register words, the flag, and whether a weight is inexact. Flush-to-zero leaves subnormal
weights as they are (log 64). -/
def gatekWords (k : Nat) (xs : List Num) : Nat × Bool × Bool :=
  let (ws, nan) := gatek k xs
  let word (i : Nat) : Nat :=
    if i < k then (ws[i]?).elim 255 fun e => e.1 else (ws[i - k]?).elim 0 fun e => e.2.1
  ((List.range (2 * k)).foldl (fun v i => v + word i * 2 ^ (32 * i)) 0, nan, ws.any fun e => e.2.2.nx)

/-- The trap of a lane of GATEK (R239). -/
def State.gatekFail (s : State) (f : F3) (c : Ctx) (l : Nat) : Option TrapInfo :=
  let x := s.grp c
  let a := x.rd32 f.a l
  let n := x.rd32 f.b l
  if n = 0 ∨ 255 < n then some (operandTrap c)
  else if a % 4 ≠ 0 then some ⟨10, causeAlign, c.pc, a, 0, none⟩
  else if (s.core c.core).partSize c.slot < a + 4 * n then some ⟨10, causeRange, c.pc, a, 0, none⟩
  else none

/-- The flushed logits of a lane. -/
def State.logits (s : State) (f : F3) (c : Ctx) (l : Nat) : List Num :=
  let x := s.grp c
  let k := s.core c.core
  (List.range (x.rd32 f.b l)).map fun e =>
    flushIn x.ftz (fp32.value (k.spadRead (k.partBase c.slot + x.rd32 f.a l + 4 * e) 4))

/-- GATEK (R232, R239), with the check of predictions in the lane that serves a row (R251). -/
def execGatek (f : F3) (s : State) : Host.Outcome State Fault Refusal :=
  let k := f.fn.toNat
  s.issue [{ dstRun f.d (2 * k) false with noneOk := false }, src32 f.a, src32 f.b] fun s c =>
    let fails := c.act.filterMap fun l => (s.gatekFail f c l).map fun t => (l, t)
    if !fails.isEmpty then .done (s.trapLanes c fails)
    else
      let r (l : Nat) : Nat × Bool × Bool := gatekWords k (s.logits f c l)
      let t := (s.advance c).onGrp c fun x =>
        let x := c.act.foldl (fun x l => x.putRegs f.d l (r l).1 (2 * k)) x
        let x := x.wrPred c f.pd fun l => (r l).2.1
        if c.act.any fun l => (r l).2.2 then x.mergeFlags .inexact else x
      let x := s.grp c
      .done (c.act.foldl (fun t l =>
        match (if l < x.tileh then x.tile[l]? else none) with
        | some (.held rid) =>
          t.onDie (dieOf c.core) fun d => d.confirmPredictions rid ((gatek k (s.logits f c l)).1.map fun e => e.1)
        | _ => t) t)

/-! ### COLQ (R240) -/

/-- The clk that the oldest row of an operator has waited in its Col unit. -/
def Die.ageOf (d : Die) (now n : Nat) : Nat :=
  match d.rowsOf n with
  | [] => 0
  | r :: rs => min (now - rs.foldl (fun a q => min a q.arrived) r.arrived) (2 ^ 32 - 1)

/-- A count of COLQ for an operator slot. DESIGN CHOICE: for a clone's slot those of its original (log 80). -/
def State.colq (s : State) (die fn slot : Nat) : Nat :=
  let d := s.die die
  let n := d.canon slot
  match d.op? n with
  | none => 0
  | some o =>
    match fn with
    | 0 => d.demand n
    | 1 => (d.col o.home).rows.length
    | 2 => ((d.col o.home).tags.filter Option.isSome).length
    | 3 => o.ready.length
    | 4 => d.ageOf s.clk n
    | 5 => (d.recs.filter fun r => r.2.place == 5 && r.2.code == 0xFFFF && s.isLocal r.2.next die && d.canon (r.2.next % 256) == n).length
    | _ => (d.clonesOf n).length

/-- COLQ (R240). -/
def execColq (f : FI) (s : State) : Host.Outcome State Fault Refusal :=
  s.issue [dst32 f.d, src32 f.a] fun s c =>
    let x := s.grp c
    let n (l : Nat) : Nat := (x.rd32 f.a l + f.imm.toNat) % 256
    let fails := c.act.filter fun l => decide (c.mode = .u) && n l != x.opid
    if !fails.isEmpty then .done (s.trapLanes c (fails.map fun l => (l, privTrap c)))
    else .done ((s.advance c).onGrp c fun x => x.wr c f.d false fun l => s.colq (dieOf c.core) f.fn.toNat (n l))

end Sys2Proof.Machine
end

