-- ==== Sys2Proof/Machine/Bind.lean ====
section
/-!
DEFINITION. Binding and unbinding of resident operators, and their clones (R211 to R214, R228, R241, R242, R252).
-/
namespace Sys2Proof.Machine

/-! ### The descriptor (R211, R242) -/

/-- n bytes of an image at an offset. -/
def fieldAt (v ofs n : Nat) : Nat := v / 256 ^ ofs % 256 ^ n

/-- Bytes of a weight block (R243). -/
def blockSize (fmt : Nat) : Nat := 128 * rowBytes fmt

/-- A schedule entry from its 16 bytes (R242). -/
def entryOf (v : Nat) : Entry :=
  { addr := fieldAt v 0 8, kb := fieldAt v 8 2, nb := fieldAt v 10 2, expert := fieldAt v 12 1, fmt := fieldAt v 13 1 % 16,
    dem := bit (fieldAt v 14 1) 0, pin := bit (fieldAt v 14 1) 1 }

/-- Whether a schedule entry keeps R242's table. -/
def entryOk (v : Nat) : Bool :=
  let e := entryOf v
  e.addr % 128 == 0 && decide (1 ≤ e.kb) && decide (e.kb ≤ 4096) && decide (1 ≤ e.nb) && decide (e.nb ≤ 4096) &&
  decide (fieldAt v 13 1 ≤ 7) && decide (fieldAt v 14 1 < 4) && fieldAt v 15 1 == 0 && !(e.dem && e.pin)

/-- Places of a pass. -/
def Entry.places (e : Entry) : Nat := e.kb * e.nb

/-- Whether a list has a value twice. -/
def hasRepeat : List Nat → Bool
  | [] => false
  | a :: r => r.contains a || hasRepeat r

/-- The stage words of a chain up to its end (R194). -/
def chainAt (v c : Nat) : List Nat :=
  ((List.range 16).map fun i => fieldAt v (0x100 + 64 * c + 4 * i) 4).takeWhile fun w => stageCode w != 0

/-- Whether every field of a descriptor is in its range and every reserved field zero (R211, R194, R327). -/
def descriptorOk (v : Nat) : Bool :=
  let home := fieldAt v 0x19 1
  let t (i : Nat) : Nat := fieldAt v (0x20 + 2 * i) 2
  let w := fieldAt v 0x14 2
  let n := fieldAt v 0x10 4
  decide (n ≤ 65536) && fieldAt v 8 8 % 16 == 0 && decide (32 ≤ w) && decide (w ≤ 640) && w % 32 == 0 &&
  decide (1 ≤ fieldAt v 0x16 1) && decide (fieldAt v 0x16 1 ≤ 24) && decide (fieldAt v 0x17 1 ≤ 3) &&
  decide (home / 16 ≤ 9) && decide (home % 16 ≤ 7) && decide (fieldAt v 0x1A 1 ≤ 64) && decide (fieldAt v 0x1B 1 < 8) &&
  decide (fieldAt v 0x1C 1 < 4) && decide (fieldAt v 0x1D 1 ≤ 7) && decide (fieldAt v 0x1E 1 ≤ 15) && fieldAt v 0x1F 1 == 0 &&
  decide (1 ≤ t 0) && decide (t 0 < t 1) && decide (t 1 < t 2) && decide (t 2 ≤ 512) && decide (1 ≤ fieldAt v 0x26 2) &&
  decide (1 ≤ fieldAt v 0x28 2) && decide (1 ≤ fieldAt v 0x2A 2) && bits (fieldAt v 0x2C 4) 31 17 == 0 &&
  bits (fieldAt v 0x2C 4) 15 7 == 0 && fieldAt v 0x50 176 == 0 &&
  (List.range 64).all fun c => (chainAt v c).all stageOk

/-- An operator slot from a descriptor and its schedule entries (R211), bound from an address space. -/
def operatorOf (v : Nat) (sched : List Entry) (pt vm : Nat) : OpSlot :=
  let home := fieldAt v 0x19 1
  { bind := 0, st := 1, entry := fieldAt v 0 8, window := fieldAt v 0x14 2, groups := fieldAt v 0x16 1, ctxslot := fieldAt v 0x17 1,
    stage := fieldAt v 0x18 1, home := 8 * (home / 16) + home % 16, kbarn := fieldAt v 0x1A 1, fpctl := fieldAt v 0x1B 1,
    idem := bit (fieldAt v 0x1C 1) 0, clone := bit (fieldAt v 0x1C 1) 1, cloneMax := fieldAt v 0x1D 1, region := fieldAt v 0x1E 1,
    thresholds := (fieldAt v 0x20 2, fieldAt v 0x22 2, fieldAt v 0x24 2), timeout := fieldAt v 0x26 2, balMark := fieldAt v 0x28 2,
    balInt := fieldAt v 0x2A 2, portal := fieldAt v 0x2C 4,
    roles := (List.range 16).map fun r => let c := fieldAt v (0x30 + 2 * r) 2; if c = 0xFFFF then none else some c,
    chains := (List.range 64).map (chainAt v), sched := sched, ptroot := pt, vmroot := vm, cloneOf := none, ready := [],
    lastRole := 16 * 9, hotSince := none, coldSince := none, firedAt := none, pinned := [], leaves := [] }

/-! ### Checks against the die (R213, R252) -/

/-- The cores an operator's roles name. -/
def OpSlot.cores (o : OpSlot) : List Nat := o.roles.filterMap id

/-- The clusters that hold member cores. -/
def OpSlot.clusters (o : OpSlot) : List Nat := distinct (o.cores.filterMap clusterOf)

/-- Condition ROLE of R213. DESIGN CHOICE: so fails a role from 648 on, which names no core (log 80). -/
def State.rolesFail (s : State) (die : Nat) (o : OpSlot) : Bool :=
  o.cores.isEmpty || hasRepeat o.cores ||
  o.cores.any fun c => decide (640 ≤ c) || dieOf c != die || s.isRemoved (c / 16)

/-- Cluster barrier ids allotted in a cluster (R213). -/
def Die.kbarUsed (d : Die) (cl : Nat) : Nat :=
  (d.ops.filter fun o => o.2.clusters.contains cl).foldl (fun n o => n + o.2.kbarn) 0
/-- Condition KBAR of R213. -/
def Die.kbarFails (d : Die) (o : OpSlot) : Bool := o.clusters.any fun cl => decide (64 < d.kbarUsed cl + o.kbarn)

/-- Entries of the rotation schedule held on a die (R244). -/
def Die.entriesHeld (d : Die) : Nat := d.ops.foldl (fun n o => n + o.2.sched.length) 0
/-- Bytes of PIN passes. -/
def pinBytes (es : List Entry) : Nat := (es.filter fun e => e.pin).foldl (fun n e => n + e.places * blockSize e.fmt) 0
/-- PINMAX in bytes (R247). -/
def Die.pinMax (d : Die) : Nat := min 40 (bits d.ridge.cfg.toNat 37 32) * 2 ^ 20

/-- The physical lines of n lines from an address on, as the operator's engine reads them. -/
def State.linesAt (s : State) (g : Agent) : Nat → Nat → Except AgentFail (List Nat)
  | 0, _ => .ok []
  | n + 1, va =>
    match s.agentAddr g .load va 1 with
    | .ok (s, pa, _) => (s.linesAt g n (va + 128)).map fun r => if s.isHbm pa then pa / 128 :: r else r
    | .error f => .error f

/-- The lines of an operator's PIN passes. -/
def State.pinLines (s : State) (g : Agent) : List Entry → Except AgentFail (List Nat)
  | [] => .ok []
  | e :: r =>
    if e.pin then (s.linesAt g (e.places * blockSize e.fmt / 128) e.addr).bind fun ls => (s.pinLines g r).map fun q => ls ++ q
    else s.pinLines g r

/-- The page-table leaves of a range of an address space: of each of its pages that is present. -/
def State.leavesOf (s : State) (pt vm addr n : Nat) : List Nat :=
  let first := addr / 8192
  distinct ((List.range ((addr + n + 8191) / 8192 - first)).filterMap fun i =>
    match s.walkBoth pt vm ((first + i) * 8192 % 2 ^ 53) with
    | .ok e => some (e.leafAt ((first + i) * 8192 % 2 ^ 53))
    | .error _ => none)

/-- Leaves' PINS raised by one, none above 255; those that were (R252, R283). -/
def State.raisePins (s : State) : List Nat → State × List Nat
  | [] => (s, [])
  | a :: r =>
    let n := s.read (a + 7) 1
    if n = 255 then s.raisePins r
    else let q := (s.write (a + 7) 1 (n + 1)).raisePins r; (q.1, a :: q.2)

/-- Leaves' PINS lowered by one, none below 0 (R252). -/
def State.lowerPins (s : State) (leaves : List Nat) : State :=
  leaves.foldl (fun s a => let n := s.read (a + 7) 1; if n = 0 then s else s.write (a + 7) 1 (n - 1)) s

/-- The lines of the PIN passes of all operators, of every die (R252). -/
def State.pinned (s : State) : List Nat := s.dies.flatMap fun d => d.2.ops.flatMap fun p => p.2.pinned

/-- Lines released that no operator pins any more, in whatever slice they stand (R252). -/
def State.unpin (s : State) (lines : List Nat) : State :=
  let free := lines.filter fun x => !s.pinned.contains x
  { s with dies := s.dies.map fun d =>
      (d.1, { d.2 with slices := d.2.slices.map fun l => if free.contains l.line then { l with pin := false } else l }) }

/-- The set of its slice that a line lies in, as one number. -/
def State.setOfLine (s : State) (line : Nat) : Nat :=
  ((s.owner (128 * line)).getD 0 * 4 + sliceOf (128 * line)) * 1024 + Config.sliceSet line % 1024

/-- Whether lines would place a thirteenth PIN line in one set (R252). -/
def State.setsFull (s : State) (lines : List Nat) : Bool :=
  let sets := (distinct lines).map s.setOfLine
  sets.any fun q => decide (12 < (sets.filter fun r => r == q).length)

/-- Condition PORTAL of R213 (R327). -/
def State.portalMissing (s : State) (p : Nat) : Bool :=
  let has (i : Nat) : Bool := s.hostAtomics.getLsbD i
  ((bit p 0 || bit p 2 || bit p 4) && !has 0) || ((bit p 1 || bit p 3 || bit p 5) && !has 1) || (bit p 6 && !has 2) ||
  (bit p 16 && !s.somePort)

/-- The first failing code from DESC to PORTAL for a descriptor that has been read (R213), and the lines of its PIN passes, unless the
engine must wait. A PIN block that cannot be read refuses with FAULT (log 31); a HOME in a cluster that start-up removed refuses with DESC,
but only where a role is bound, for the default descriptor is refused with ROLE (R212, log 67). -/
def State.bindCheck (s : State) (die : Nat) (g : Agent) (v : Nat) (raw : List Nat) (o : OpSlot) : Option (Nat × List Nat) :=
  let d := s.die die
  if !descriptorOk v || (s.isRemoved (die * 10 + o.home / 8) && !o.cores.isEmpty) || !(raw.all entryOk) || hasRepeat (o.sched.map fun e => e.expert) then some (2, [])
  else if s.rolesFail die o then some (3, [])
  else if d.ops.any fun p => p.2.st == 1 && p.2.home == o.home && p.2.stage != o.stage then some (4, [])
  else if d.kbarFails o then some (5, [])
  else if 65536 < d.entriesHeld + o.sched.length ∨ d.pinMax < pinBytes o.sched + d.ops.foldl (fun n p => n + pinBytes p.2.sched) 0 then some (6, [])
  else
    match s.pinLines g o.sched with
    | .error .busy => none
    | .error _ => some (if s.portalMissing o.portal then 7 else 8, [])
    | .ok lines =>
      if s.setsFull (lines ++ s.pinned) then some (6, [])
      else if s.portalMissing o.portal then some (7, [])
      else some (0, lines)

/-! ### The effect of binding and freeing (R213, R241, R252) -/

/-- A slot BOUND: the member cores and the HOME Col unit take STAGE (R16). -/
def State.bindSlot (s : State) (die slot : Nat) (o : OpSlot) : State :=
  let s := { s with nextId := s.nextId + 1 }.onDie die fun d =>
    let u := d.col o.home
    { d with ops := d.ops.put slot { o with bind := s.nextId }, cols := d.cols.put o.home { u with stage := o.stage } }
  o.cores.foldl (fun s c => s.onCore c fun k => { k with stage := o.stage }) s

/-- The lines of PIN passes read into their slices and held there (R252). -/
def State.pinAll (s : State) (lines : List Nat) : State := lines.foldl (fun s x => s.touchLine (128 * x) 0 15 0 true) s

/-- The pages of a bound operator's PIN passes pinned (R252). -/
def State.pinOperator (s : State) (die slot : Nat) : State :=
  match (s.die die).op? slot with
  | none => s
  | some o =>
    let leaves := (o.sched.filter Entry.pin).flatMap fun e => s.leavesOf o.ptroot o.vmroot e.addr (e.places * blockSize e.fmt)
    let (s, held) := s.raisePins (distinct leaves)
    s.onDie die fun d => d.onOp slot fun o => { o with leaves := held }

/-- A slot freed: its barrier ids, its schedule entries, its PIN lines and their pages' pins are given back (R241, R252). -/
def State.freeSlot (s : State) (die slot : Nat) : State :=
  match (s.die die).op? slot with
  | none => s
  | some o =>
    let s := o.clusters.foldl (init := s.lowerPins o.leaves) (fun s cl => s.onCluster cl fun k => { k with kbar := k.kbar.filter fun b => b.1 / 64 != slot })
    ((s.onDie die fun d =>
      { d with ops := d.ops.erase slot,
               ridge := { d.ridge with reserved := d.ridge.reserved.filter fun v => v.key / 256 != slot } }).unpin o.pinned).noteDie die

/-- Whether a resident group belongs to an operator slot. -/
def State.hasGroups (s : State) (die slot : Nat) : Bool :=
  s.cores.any fun k => dieOf k.1 == die && k.2.groups.any fun g => g.2.tileh != 0 && g.2.opid == slot

/-- Whether an operator is idle (R241): no row in STORE, COL or TILE, no queued tile, no tile group, no busy clone. A clone has the rows of
the tiles that were placed on its own cores, those of groups that CTXSV has saved among them. -/
def State.opIdle (s : State) (die slot : Nat) : Bool :=
  let d := s.die die
  match d.op? slot with
  | none => true
  | some o =>
    o.ready.isEmpty && d.demand slot == 0 && !s.hasGroups die slot && !((d.clonesOf slot).any fun c => s.hasGroups die c.1) &&
    (if o.cloneOf.isSome then !(d.recs.any fun r => r.2.tiles.contains slot) else !(d.recs.any fun r => decide (1 ≤ r.2.place) && decide (r.2.place ≤ 3) && s.isLocal r.2.next die &&
      d.canon (r.2.next % 256) == slot))

/-! ### OPBIND, OPUNBIND (R241) -/

/-- Whether n bytes can be read by an agent without a fault, page by page (R213). -/
def State.readable (s : State) (g : Agent) : Nat → Nat → Nat → Except AgentFail Unit
  | 0, _, _ => .ok ()
  | fuel + 1, va, n =>
    if n = 0 then .ok ()
    else
      let k := min n (8192 - va % 8192)
      match s.agentAddr g .load va k with
      | .error f => .error f
      | .ok (_, pa, _) =>
        if s.poison.any fun x => decide (pa < 32 * x + 32) && decide (32 * x < pa + k) then .error (.uncorr pa)
        else s.readable g fuel (va + k) (n - k)

/-- What OPBIND has read: the state, the descriptor, its schedule entries, the clock after the reads and the highest W they read. -/
structure BindRead where
  s : State
  v : Nat
  raw : List Nat
  c : Nat
  w : Option Nat

/-- OPBIND's reads (R213, R241): the descriptor and its RCOUNT entries; of more entries than a rotation holds, the descriptor is refused
once they have proved readable. They wait for earlier accesses of the lane to those bytes (R300). -/
def State.bindRead (s : State) (g : Agent) (waits : Nat → Nat → Bool) (c addr : Nat) : Except AgentFail BindRead :=
  match (if waits addr 0x1100 then .error .busy else s.agentGetSure g c addr 0x1100) with
  | .error f => .error f
  | .ok r =>
    let n := fieldAt r.value 0x10 4
    let sched := fieldAt r.value 8 8 % 2 ^ 53
    let held := min n 65536
    match (if waits sched (16 * held) then .error .busy else r.s.agentGetSure g r.c sched (16 * held)) with
    | .error f => .error f
    | .ok q =>
      match q.s.readable g ((16 * (n - held) + 16383) / 8192) ((sched + 16 * held) % 2 ^ 53) (16 * (n - held)) with
      | .error f => .error f
      | .ok _ => .ok ⟨q.s, r.value, (List.range held).map fun i => fieldAt q.value (16 * i) 16, q.c, stampWith r.w q.w⟩

/-- OPBIND's work for a lane: the state, the code, the clock after its reads, and the stamp it acquires; nothing while its reads must
wait. -/
def State.opbind (s : State) (c : Ctx) (l addr b : Nat) : Option (State × Nat × Nat × Option Nat) :=
  let die := dieOf c.core
  let k := (s.grp c).lane l
  let slot := b % 256
  if 256 ≤ b ∨ ((s.die die).op? slot).isSome then some (s, 1, k.c, none)
  else if addr % 64 ≠ 0 then some (s, 2, k.c, none)
  else
    let g := s.agentFor c.core c.gid l c.slot c.mode
    match s.bindRead g (s.ownWaits c l) k.c (addr % 2 ^ 53) with
    | .error .busy => none
    | .error _ => some (s, 8, k.c, none)
    | .ok r =>
      let (pt, vm) := (s.core c.core).roots c.slot
      let o := operatorOf r.v (r.raw.map entryOf) pt vm
      (r.s.bindCheck die { g with hash := none, mode := .s } r.v r.raw o).map fun q =>
        if q.1 ≠ 0 then (r.s, q.1, r.c, r.w)
        else
          let t := ((r.s.bindSlot die slot { o with pinned := q.2 }).pinAll q.2).pinOperator die slot
          (t.noteDie die, 0, r.c, r.w)

/-- OPBIND (R241): once, with the values of the lowest active lane; its reads are an acquire. -/
def execOpbind (f : F3) (s : State) : Host.Outcome State Fault Refusal :=
  s.issueWith [] [dst32 f.d, src64 f.a, src32 f.b] (fun c _ => decide (c.mode ≠ .u)) fun s c =>
    if c.act.isEmpty then .done (s.advance c)
    else
      let x := s.grp c
      match s.opbind c c.low (x.rd64 f.a c.low) (x.rd32 f.b c.low) with
      | none => .stall
      | some (t, code, clock, w) =>
        .done ((t.advance c).onGrp c fun x =>
          (x.onLane c.low fun k => let k := { k with c := stampMax k.c clock }; w.elim k k.acquire).wr c f.d false fun _ => code)

/-- A slot that becomes CLOSING leaves its region, and so do its tile groups (R231, R241). -/
def State.closeSlot (s : State) (die slot : Nat) : State :=
  ((s.onDie die fun d => d.onOp slot fun o => { o with st := 2 }).mapDieGroups die fun x =>
    if x.tileh ≠ 0 ∧ x.opid = slot then { x with frozenRegion := none } else x).noteDie die

/-- OPUNBIND (R241). DESIGN CHOICE: a B with bits above [7:0] names no slot, and gives 1 in both forms (log 80). -/
def execOpunbind (f : F3) (s : State) : Host.Outcome State Fault Refusal :=
  s.issueWith [] [dst32 f.d, src32 f.b] (fun c _ => decide (c.mode ≠ .u)) fun s c =>
    if c.act.isEmpty then .done (s.advance c)
    else
      let die := dieOf c.core
      let b := (s.grp c).rd32 f.b c.low
      let ok := decide (b < 256) && ((s.die die).op? b).isSome && s.opIdle die b
      let t := if ok then ((((s.die die).clonesOf b).map fun e => e.1) ++ [b]).foldl (fun s n => s.freeSlot die n) s else s
      .done ((t.advance c).onGrp c fun x => x.wr c f.d false fun _ => (!ok).toNat)

/-- OPUNBIND.CLOSE (R241). -/
def execOpunbindClose (f : F3) (s : State) : Host.Outcome State Fault Refusal :=
  s.issueWith [] [dst32 f.d, src32 f.b] (fun c _ => decide (c.mode ≠ .u)) fun s c =>
    if c.act.isEmpty then .done (s.advance c)
    else
      let die := dieOf c.core
      let b := (s.grp c).rd32 f.b c.low
      let ok := decide (b < 256) && ((s.die die).op? b).isSome
      let t := if ok then s.closeSlot die b else s
      .done ((t.advance c).onGrp c fun x => x.wr c f.d false fun _ => (!ok).toNat)

/-! ### The balancer (R228) -/

/-- The distance of two clusters of a die (log 30). -/
def clusterDistance (a b : Nat) : Nat := (a - b) + (b - a)

/-- The spare cores of a die: of working clusters, named by no BOUND operator; nearest cluster to a home first (R228). -/
def State.spareCores (s : State) (die home : Nat) : List Nat :=
  let named := (s.die die).ops.flatMap fun o => if o.2.st = 1 then o.2.cores else []
  let free := (List.range 160).map (fun i => 160 * die + i) |>.filter fun c => !named.contains c && !s.isRemoved (c / 16)
  (List.range 10).flatMap fun dist => free.filter fun c => clusterDistance (c / 16 % 10) home == dist

/-- Roles bound to spare cores in order. -/
def mapRoles : List (Option Nat) → List Nat → List (Option Nat)
  | [], _ => []
  | none :: r, cs => none :: mapRoles r cs
  | some _ :: r, c :: cs => some c :: mapRoles r cs
  | some _ :: r, [] => none :: mapRoles r []

/-- BALANCER_CLONE (R228). DESIGN CHOICE: the clone takes the lowest FREE slot, and none is made where the spare cores are fewer than the
operator's bound roles (log 80). -/
def execBalancerClone (s : State) : Host.Outcome State Fault Refusal :=
  let die := s.turn.unit
  let n := s.turn.item
  let d := s.die die
  match d.op? n, (List.range 256).find? fun i => (d.op? i).isNone with
  | some o, some slot =>
    let spare := s.spareCores die (o.home / 8)
    let hot := match o.hotSince with | some t => decide (t + o.balInt * 1024 ≤ s.clk) | none => false
    let p := { o with roles := mapRoles o.roles spare, cloneOf := some n, ready := [], lastRole := 0, hotSince := none, coldSince := none,
                      firedAt := none, leaves := [], clone := false, st := 1 }
    if o.st ≠ 1 ∨ o.cloneOf.isSome ∨ !o.clone ∨ o.cloneMax ≤ (d.clonesOf n).length ∨ !hot ∨ spare.length < o.cores.length ∨
       d.kbarFails p ∨ 65536 < d.entriesHeld + p.sched.length then .next s
    else happened ((s.bindSlot die slot p).onDie die fun d => d.onOp n fun o => { o with hotSince := some s.clk })
  | _, _ => .next s

/-- BALANCER_CLOSE (R228): a clone of an operator that stays cold is closed, and freed once idle. -/
def execBalancerClose (s : State) : Host.Outcome State Fault Refusal :=
  let die := s.turn.unit
  let n := s.turn.item
  let d := s.die die
  match d.op? n with
  | none => .next s
  | some o =>
    match o.cloneOf.bind d.op? with
    | none => .next s
    | some p =>
      let cold := match p.coldSince with | some t => decide (t + p.balInt * 1024 ≤ s.clk) | none => false
      if o.st = 1 ∧ !cold then .next s
      else
        let s := if o.st = 1 then s.closeSlot die n else s
        happened (if s.opIdle die n then s.freeSlot die n else s)

end Sys2Proof.Machine
end

