-- ==== Sys2Proof/Machine/Ride.lean ====
section
/-!
DEFINITION. The Ridgeline weight carousel (spec/10): turns, passes and blocks, boarding and leaving, expert predictions, and the
retirement of groups (R77). The instructions BOARD, XPRED, CRSTAT and RIDGE.
-/
namespace Sys2Proof.Machine

/-! ### Rides (R189, R248, R249) -/

/-- The Ridgeline of a die changed. -/
def State.onRidge (s : State) (die : Nat) (f : Ridge → Ridge) : State := s.onDie die fun d => { d with ridge := f d.ridge }

/-- The schedule entry of a pass, if its operator is BOUND or CLOSING and names the expert. -/
def Die.passEntry (d : Die) (op expert : Nat) : Option Entry :=
  (d.op? op).bind fun o => o.sched.find? fun e => e.expert == expert

/-- The number of the binding that an operator slot has now (log 1). -/
def Die.bindOf (d : Die) (op : Nat) : Nat := (d.op? op).elim 0 fun o => o.bind
/-- Whether an operator slot still has a binding. -/
def Die.isBinding (d : Die) (op bind : Nat) : Bool := (d.op? op).any fun o => o.bind == bind

/-- A core's matrix operations changed wherever they stand: queued, pending on a mask, or interrupted. -/
def Core.mapOps (k : Core) (f : MatOp → MatOp) : Core :=
  let group (x : Group) : Group :=
    { x with masks := x.masks.map fun m => { m with pending := m.pending.map f }, step := x.step.map f }
  { k with queue := k.queue.map f }.mapGroups group

/-- Whether an operation's place is in the opening that a ride names. -/
def RideRef.of (q : RideRef) (r : Ride) : Bool := q.op == r.op && q.expert == r.expert && q.bind == r.bind && q.opening == r.opening

/-- The operations that a group leaving a ride cancels (R249). -/
def Core.cancelled (k : Core) (owner : Nat) (r : Ride) : List MatOp :=
  k.matOps.filter fun o =>
    o.owner == owner &&
    match o.ride with
    | some q => q.of r && !k.blockHere q
    | none => false

/-- An operation cancelled: it completes without effect (R249). -/
def Core.cancelOp (k : Core) (o : MatOp) : Core :=
  let k := k.onGroup o.gid fun x =>
    { x with masks := x.masks.map fun m => if m.pending.any (fun p => p.id == o.id) then { m with pending := none } else m,
             step := x.step.filter fun p => p.id != o.id }
  k.completeOp { o with flags := 0 }

/-- A group leaves an opening of a pass (R249), whether its boarding has ended already or not; `eject` sets EJECT. -/
def State.leavePass (s : State) (core gid : Nat) (r : Ride) (eject : Bool) : State :=
  match s.group? core gid with
  | none => s
  | some x =>
    let k := s.core core
    let k := ((k.cancelled x.uid r).foldl (fun k o => k.cancelOp o) k).dropUser x.uid fun b =>
      b.op == r.op && b.expert == r.expert && r.opening == some b.opening
    let left (q : Ride) : Bool := q.op == r.op && q.expert == r.expert && q.bind == r.bind && q.opening == r.opening
    let k := k.onGroup gid fun x => { x with ride := x.ride.filter fun q => !left q, eject := x.eject || eject }
    (s.setCore core k).onRidge (dieOf core) fun g =>
      { g with passes := g.passes.map fun p => if some p.id = r.opening then { p with riders := p.riders.filter fun q => q != (core, x.uid) } else p }

/-- A group leaves its ride (R249). -/
def State.leaveRide (s : State) (core gid : Nat) (eject : Bool) : State :=
  match (s.group core gid).ride with
  | none => s
  | some r => s.leavePass core gid r eject

/-- The openings that a group rides, or that operations of it still name: boarded, its boarding over, or among a pass's riders. -/
def State.openingsOf (s : State) (core gid : Nat) : List Ride :=
  let x := s.group core gid
  let ops := (s.core core).matOps.filterMap fun o => if o.owner = x.uid then o.ride else none
  let passes := (s.die (dieOf core)).ridge.passes.filter fun p => p.riders.contains (core, x.uid)
  x.ride.toList ++ ops.map (fun q => (⟨q.op, q.expert, q.bind, false, q.opening, 0, 0⟩ : Ride)) ++
    passes.map fun p => ⟨p.op, p.expert, p.bind, false, some p.id, 0, 0⟩

/-- A group that is saved leaves its ride, and every opening that operations of it still wait for (R249, R425). EJECT says so where it was
boarded or an operation is cancelled. -/
def State.leaveAll (s : State) (core gid : Nat) : State :=
  let k := s.core core
  (s.openingsOf core gid).foldl (fun s r =>
    s.leavePass core gid r ((s.group core gid).ride.isSome || !(k.cancelled (s.group core gid).uid r).isEmpty)) s

/-- The groups of a die that ride the next opening of a pass (R246, R248): boarded for it, or with operations that took places
of it before its cut. -/
def State.nextRiders (s : State) (die op expert bind : Nat) : List (Nat × Nat) :=
  s.cores.flatMap fun k =>
    if dieOf k.1 ≠ die then []
    else
      let uids := k.2.groups.filterMap fun g =>
        let x := g.2
        let rides := match x.ride with | some r => r.op == op && r.expert == expert && r.bind == bind && r.opening.isNone | none => false
        let owed := k.2.matOps.any fun o => o.owner == x.uid &&
          match o.ride with | some q => q.op == op && q.expert == expert && q.bind == bind && q.opening.isNone | none => false
        if rides || owed then some x.uid else none
      uids.map fun u => (k.1, u)

/-- A group boarded for the next opening of a pass: it selects a DEM pass (R250). -/
def State.awaited (s : State) (die op expert bind : Nat) : Bool := !(s.nextRiders die op expert bind).isEmpty

/-- The riders of a pass join its opening at the cut. -/
def State.joinOpening (s : State) (die op expert bind id : Nat) : State :=
  let ride (r : Ride) : Ride := if r.op = op ∧ r.expert = expert ∧ r.bind = bind ∧ r.opening.isNone then { r with opening := some id } else r
  let ref (q : RideRef) : RideRef := if q.op = op ∧ q.expert = expert ∧ q.bind = bind ∧ q.opening.isNone then { q with opening := some id } else q
  { s with cores := s.cores.map fun k =>
      if dieOf k.1 = die then (k.1, (k.2.mapOps fun o => { o with ride := o.ride.map ref }).mapGroups fun x => { x with ride := x.ride.map ride })
      else k }

/-! ### Turns and openings (R244, R245, R250, R252) -/

/-- Whether one rotation entry comes before another: STAGE, then slot; entries of one operator keep their order (R244). -/
def RotEntry.before (a b : RotEntry) : Bool := decide (a.stage < b.stage) || (a.stage == b.stage && decide (a.op ≤ b.op))

/-- A rotation entry put in its place. -/
def insertRot (a : RotEntry) : List RotEntry → List RotEntry
  | [] => [a]
  | b :: r => if a.before b then a :: b :: r else b :: insertRot a r

/-- The rotation of the entries now bound (R244). -/
def Die.rotationNow (d : Die) : List RotEntry :=
  let all := d.ops.flatMap fun o => (o.2.sched.filter fun e => !e.pin).map fun e => (⟨o.1, o.2.bind, o.2.stage, e, o.2.ptroot, o.2.vmroot⟩ : RotEntry)
  all.foldr insertRot []

/-- The status of a pass in the current turn. -/
def Ridge.stat (g : Ridge) (op expert bind : Nat) : Option PassStat := g.stats.find? fun t => t.op == op && t.expert == expert && t.bind == bind
/-- The status of a pass changed; a pass that is not in the turn's rotation, a PIN pass, is entered where it is not yet (R259). -/
def Ridge.onStat (g : Ridge) (op expert bind : Nat) (f : PassStat → PassStat) : Ridge :=
  let old := if (g.stat op expert bind).isSome then g.stats else g.stats ++ [⟨op, expert, bind, 0, 0, false, false⟩]
  { g with stats := old.map fun t => if t.op = op ∧ t.expert = expert ∧ t.bind = bind then f t else t }

/-- The lanes that wait in RIDGE.SYNC go on with the turn's number (R260). -/
def State.endSyncs (s : State) (die : Nat) : State :=
  let g := (s.die die).ridge
  let wake (s : State) (w : SyncWait) : State := s.onGroup w.core w.gid fun x =>
    let ls := (lanesOf w.lanes).filter fun l => (x.lane l).wait == .reply w.id
    let x := ls.foldl (fun x l => x.put32 w.dest l (g.turns % 2 ^ 32)) x
    x.onLanes x.live fun _ k => if k.wait = .reply w.id then { k with wait := .none, pc := nextPc k.pc } else k
  (g.syncs.foldl wake s).onRidge die fun g => { g with syncs := [] }

/-- The decision of the segment that begins at the cursor (R250), where it has not been made. -/
def State.decideSegment (s : State) (die : Nat) : State :=
  let g := (s.die die).ridge
  match g.rotation.drop g.cursor with
  | [] => s
  | e :: _ =>
    if g.cursor ≠ 0 ∧ (g.rotation[g.cursor - 1]?).elim false (fun p => p.stage == e.stage) then s
    else
      let segment := g.rotation.filter fun r => r.stage == e.stage
      let d := s.die die
      let bound (r : RotEntry) : Bool := d.isBinding r.op r.bind
      let inSeg (key : Nat) : Bool := segment.any fun r => r.op * 256 + r.entry.expert == key && bound r
      let stats := g.stats.map fun t =>
        match segment.find? fun r => r.op == t.op && r.entry.expert == t.expert && r.bind == t.bind with
        | some r => { t with decided := true,
                             selected := s.awaited die t.op t.expert t.bind ||
                               (bound r && g.reserved.any fun v => v.key == t.op * 256 + t.expert) }
        | none => t
      s.onRidge die fun g =>
        { g with stats := stats, reserved := g.reserved.map fun v => if inSeg v.key then { v with decided := true } else v }

/-- A pass opens at its cut (R245, R246, R248). -/
def State.openPass (s : State) (die op bind : Nat) (e : Entry) (pt vm : Nat) : State :=
  let g := (s.die die).ridge
  let id := g.nextPass
  let p : Pass :=
    { id := id, op := op, expert := e.expert, bind := bind, entry := e, turn := g.turns, next := 0, staged := [],
      riders := s.nextRiders die op e.expert bind, fault := none, pin := e.pin, pt := pt, vm := vm }
  (s.joinOpening die op e.expert bind id).onRidge die fun g =>
    { g.onStat op e.expert bind (fun t => { t with st := 1 }) with passes := g.passes ++ [p], nextPass := id + 1 }

/-- The entry at the cursor opens or is skipped (R245, R250); its decided reservations lapse (R251). -/
def State.openNext (s : State) (die : Nat) : Option State :=
  let g := (s.die die).ridge
  match g.rotation[g.cursor]? with
  | none => none
  | some e =>
    let x := e.entry.expert
    if g.paused ∨ 64 ≤ g.passes.length ∨ g.passes.any fun p => p.op == e.op && p.expert == x && p.bind == e.bind && !p.pin then none
    else
      let t := s.decideSegment die
      let skip := e.entry.dem && (((t.die die).ridge.stat e.op x e.bind).elim false fun q => !q.selected)
      let u := if skip then t.onRidge die fun g => g.onStat e.op x e.bind fun q => { q with st := 3 }
        else t.openPass die e.op e.bind e.entry e.pt e.vm
      some (u.onRidge die fun g =>
        { g with cursor := g.cursor + 1, reserved := g.reserved.filter fun v => !(v.key == e.op * 256 + x && v.decided && (s.die die).isBinding e.op e.bind) })

/-- A new turn's rotation, with nothing opened (R244). -/
def State.beginTurn (s : State) (die : Nat) : State :=
  s.onDie die fun d =>
    let rot := d.rotationNow
    let g := d.ridge
    { d with ridge := { g with
        rotation := rot, cursor := 0, turns := g.turns + 1, first := some s.clk,
        period := match g.first with | some t => min (s.clk - t) (2 ^ 32 - 1) | none => 0,
        stats := rot.map fun e => ⟨e.op, e.entry.expert, e.bind, 0, 0, false, false⟩ } }

/-- A PIN pass that a group waits for and that is not open (R252), with its operator's slot. -/
def State.pinToOpen (s : State) (die : Nat) : Option (Nat × OpSlot × Entry) :=
  let d := s.die die
  d.ops.findSome? fun o => (o.2.sched.find? fun e =>
      e.pin && s.awaited die o.1 e.expert o.2.bind &&
      !(d.ridge.passes.any fun p => p.op == o.1 && p.expert == e.expert && p.bind == o.2.bind)).map fun e => (o.1, o.2, e)

/-- Whether a pass will open in the current turn with a group that boards now aboard (R248, R250). -/
def Die.opensThisTurn (d : Die) (op expert : Nat) (e : Entry) : Bool :=
  match d.ridge.stat op expert (d.bindOf op) with
  | some t => t.st == 0 && (!e.dem || !t.decided || t.selected)
  | none => false

/-- The effect of a boarding (R257) and its code; a group whose slot is being saved leaves at once, with EJECT (R249, R425). -/
def State.boardEffect (s : State) (core gid : Nat) (b : Boarding) : State × Nat :=
  let x := s.group core gid
  let d := s.die (dieOf core)
  if b.leave then (if x.boarded then (s.leaveRide core gid false, 0) else (s, 1))
  else if x.boarded then (s, 3)
  else match d.passEntry b.op b.expert with
    | none => (s, 2)
    | some e =>
      let code := if e.pin || d.opensThisTurn b.op b.expert e then 0 else 1
      let t := s.onGroup core gid fun x =>
        { x with ride := some ⟨b.op, b.expert, d.bindOf b.op, e.pin, none, 0, e.places⟩, eject := false }
      (if (s.core core).saves x.slot then t.leaveRide core gid true else t, code)

/-- A group's boardings that are due take effect, in order of issue (R248). -/
def State.takeBoardings (s : State) (core gid : Nat) : State :=
  let x := s.group core gid
  let (due, rest) := x.boardings.partition fun b => decide (b.due ≤ s.clk)
  due.foldl (fun s b =>
    let (t, code) := s.boardEffect core gid b
    t.onGroup core gid fun x => (lanesOf b.lanes).foldl (fun x l => x.put32 b.dest l code) x)
    (if due.isEmpty then s else s.onGroup core gid fun x => { x with boardings := rest })

/-- Every boarding of the package that is due takes effect (R248): none is ever later than the clk it names, whatever happens in that clk. -/
def State.takeDue (s : State) : State :=
  (s.cores.flatMap fun k => (k.2.groups.filter fun g => g.2.boardings.any fun b => decide (b.due ≤ s.clk)).map fun g => (k.1, g.1)).foldl
    (fun s p => s.takeBoardings p.1 p.2) s

/-- BOARD_TAKE_EFFECT (R248): 8 clk after its issue, in order of issue; the clock brings it about as it moves on (State.takeDue). -/
def execBoardTakeEffect (s : State) : Host.Outcome State Fault Refusal := happened (s.takeBoardings s.turn.unit s.turn.item)

/-- PASS_OPEN (R245, R248, R252): a PIN pass that is waited for; else the next entry of the turn; else the first of a new turn. -/
def execPassOpen (s : State) : Host.Outcome State Fault Refusal :=
  let die := s.turn.unit
  let g := (s.die die).ridge
  match (if g.paused ∨ 64 ≤ g.passes.length then none else s.pinToOpen die) with
  | some (op, o, e) => happened (s.openPass die op o.bind e o.ptroot o.vmroot)
  | none =>
    if g.cursor < g.rotation.length then
      match s.openNext die with
      | some t => happened t
      | none => .next s
    else if g.first.elim false (fun t => decide (s.clk ≤ t)) then .next s
    else if (s.die die).rotationNow.isEmpty then
      happened ((s.onRidge die fun g => { g with rotation := [], cursor := 0 }).endSyncs die)
    else match (s.beginTurn die).openNext die with
      | some t => happened (t.endSyncs die)
      | none => .next s

/-! ### Blocks (R243, R246, R254) -/

/-- Bytes a die's engine may read in a window of 4,096 clk (R246, R247): at SHARE 10 in P1 and deeper (R446). -/
def State.ridgeBudget (s : State) (die : Nat) : Nat :=
  (if s.power = 0 then max 1 (min 90 (bits (s.die die).ridge.cfg.toNat 14 8)) else 10) * 233016

/-- An open pass changed. -/
def Ridge.onPass (g : Ridge) (id : Nat) (f : Pass → Pass) : Ridge := { g with passes := g.passes.map fun p => if p.id = id then f p else p }

/-- A pass whose last block has gone closes (R245); in the turn it opened in, CRSTAT shows it closed (R259). -/
def Ridge.closePass (g : Ridge) (id : Nat) : Ridge :=
  match g.passes.find? (fun p => p.id == id) with
  | none => g
  | some p =>
    if p.next < p.entry.places ∨ !p.staged.isEmpty then g
    else { g.onStat p.op p.expert p.bind (fun t => if p.turn = g.turns then { t with st := 2 } else t) with passes := g.passes.filter fun q => q.id != id }

/-- The fault record of a block read (R254): as a copy engine's. -/
def ridgeFault (die : Nat) (g : Agent) (va : Nat) (f : XFail) : FaultRec :=
  { va := va, pc := 0, seqno := 0, rowid := 0xFFFFFFFF, lanes := 0, core := 160 * die, lane := 0, kind := 5, stamp := 0,
    asid := bits g.pt 11 0, vmid := bits g.vm 11 0, cause := f.cause, slotByte := 32, log := 0xFFFF, ipa := f.ipa, gid := 0, setLanes := 0 }

/-- The engine as it reads for a pass: a pass that is the current one of a deferred invalidation goes on to its end (R254, R283). -/
def State.passAgent (s : State) (die : Nat) (p : Pass) : Agent :=
  { unitAgent die p.pt p.vm with current := s.invals.any fun i => i.passes.contains (die, p.id) }

/-- The read of a pass's next block, if it can read one (R246): within the window's bytes unless it is a PIN pass's. -/
def State.blockRead (s : State) (die : Nat) (p : Pass) : Option (Except AgentFail AgentOut) :=
  let r := (s.die die).ridge
  let n := blockSize p.entry.fmt
  let used := if r.window = s.clk / 4096 then r.used else 0
  if r.paused ∨ p.fault.isSome ∨ p.entry.places ≤ p.next ∨ 2 ≤ p.staged.length ∨ (!p.pin ∧ s.ridgeBudget die < used + n) then none
  else match s.agentGet (s.passAgent die p) 0 ((p.entry.addr + p.next * n) % 2 ^ 53) n with
    | .error .busy => none
    | o => some o

/-- The pass whose turn it is to read a block (R246): the passes that can read take turns. -/
def State.nextReader (s : State) (die : Nat) : Option (Pass × Except AgentFail AgentOut) :=
  let r := (s.die die).ridge
  let (after, before) := r.passes.partition fun p => decide (r.readFrom ≤ p.id)
  (after ++ before).findSome? fun p => (s.blockRead die p).map fun o => (p, o)

/-- BLOCK_READ_ISSUE (R246): the next block of the pass whose turn it is is read into staging. -/
def execBlockReadIssue (s : State) : Host.Outcome State Fault Refusal :=
  let die := s.turn.unit
  match s.nextReader die with
  | none => .next s
  | some (p, .error f) =>
    let va := match f with | .xlate _ va => va | _ => p.entry.addr
    let x : XFail := match f with | .xlate x _ => x | _ => ⟨6, 0⟩
    happened ((s.postFault die (ridgeFault die (s.passAgent die p) va x)).onRidge die fun r => r.onPass p.id fun p => { p with fault := some va })
  | some (p, .ok o) =>
    let n := blockSize p.entry.fmt
    let window := s.clk / 4096
    let bad := if o.bad = 0 then [] else s.badSectors (s.passAgent die p) ((p.entry.addr + p.next * n) % 2 ^ 53) n
    let b : Staged := ⟨p.next, putBytes [] 0 n o.value, bad, distinct (p.riders.map fun q => q.1), s.clk⟩
    happened (o.s.onRidge die fun r =>
      ({ r.onStat p.op p.expert p.bind (fun t => { t with read := min (t.read + 1) (2 ^ 24 - 1) }) with
         window := window, used := (if r.window = window then r.used else 0) + (if p.pin then 0 else n), readFrom := p.id + 1 }.onPass p.id fun p =>
        { p with next := p.next + 1, staged := if b.cores.isEmpty then p.staged else p.staged ++ [b] }).closePass p.id)

/-- A staged block delivered to those of its cores whose landing buffer is free and that wait for no earlier block (R178, R246). -/
def State.deliverBlock (s : State) (p : Pass) (earlier : List Nat) (b : Staged) : State × Staged :=
  b.cores.foldl (fun (r : State × Staged) core =>
    let k := r.1.core core
    let users := p.riders.filterMap fun q => if q.1 = core then some q.2 else none
    let served := { r.2 with cores := r.2.cores.filter fun c => c != core }
    if users.isEmpty then (r.1, served)
    else if earlier.contains core ∨ !k.landing.isEmpty then r
    else
      let blk : RideBlock := ⟨p.op, p.expert, p.id, b.place, p.entry.fmt, b.bytes, users, b.bad⟩
      (r.1.setCore core { k with landing := [blk] }, served)) (s, b)

/-- The staged blocks of a pass delivered in pass order. -/
def State.deliverAll (s : State) (p : Pass) (earlier : List Nat) : List Staged → State × List Staged
  | [] => (s, [])
  | b :: r =>
    let (s, b) := s.deliverBlock p earlier b
    let (s, r) := s.deliverAll p (earlier ++ b.cores) r
    (s, if b.cores.isEmpty then r else b :: r)

/-- BLOCK_DELIVER (R246). -/
def execBlockDeliver (s : State) : Host.Outcome State Fault Refusal :=
  let die := s.turn.unit
  match (s.die die).ridge.passes.find? (fun p => p.id == s.turn.item) with
  | none => .next s
  | some p =>
    let (t, left) := s.deliverAll p [] p.staged
    happened (t.onRidge die fun r => (r.onPass p.id fun p => { p with staged := left }).closePass p.id)

/-- HOLD in clk (R247). -/
def Ridge.hold (g : Ridge) : Nat := 64 * bits g.cfg.toNat 63 48

/-- The groups of a core by uid. -/
def Core.gidOf (k : Core) (uid : Nat) : Option Nat := k.groups.findSome? fun g => if g.2.uid = uid then some g.1 else none

/-- RIDE_EJECT (R246): a block has waited for a core's landing buffer for more than HOLD; the riders of that opening on the core leave it,
those too whose boarding has ended (R249). -/
def execRideEject (s : State) : Host.Outcome State Fault Refusal :=
  let die := s.turn.unit
  let core := s.turn.sub
  let r := (s.die die).ridge
  match r.passes.find? (fun p => p.id == s.turn.item) with
  | none => .next s
  | some p =>
    let late := p.staged.any fun b => b.cores.contains core && decide (b.since + r.hold < s.clk)
    if r.hold = 0 ∨ r.paused ∨ !late ∨ (s.core core).landing.isEmpty then .next s
    else
      let gids := p.riders.filterMap fun q => if q.1 = core then (s.core core).gidOf q.2 else none
      let t := gids.foldl (fun s g => s.leavePass core g ⟨p.op, p.expert, p.bind, p.pin, some p.id, 0, p.entry.places⟩ true) s
      happened (t.onRidge die fun r => (r.onPass p.id fun p =>
        { p with riders := p.riders.filter (fun q => q.1 != core),
                 staged := (p.staged.map fun b => { b with cores := b.cores.filter fun c => c != core }).filter fun b => !b.cores.isEmpty }).closePass p.id)

/-- FROZEN_RIDE_EJECT (R249, R429): a ride held frozen past HOLD. -/
def execFrozenRideEject (s : State) : Host.Outcome State Fault Refusal :=
  let core := s.turn.unit
  let gid := s.turn.item
  let x := s.group core gid
  let r := (s.die (dieOf core)).ridge
  let late := match x.frozenSlot, x.frozenRegion with
    | some t, some u => decide (min t u + r.hold < s.clk)
    | some t, none => decide (t + r.hold < s.clk)
    | none, some u => decide (u + r.hold < s.clk)
    | none, none => false
  if x.ride.isNone ∨ r.hold = 0 ∨ r.paused ∨ !late then .next s else happened (s.leaveRide core gid true)

/-! ### BOARD (R248, R257) -/

/-- A BOARD on its way (R248): its code comes 8 clk later. -/
def State.queueBoard (s : State) (c : Ctx) (leave : Bool) (op expert : Nat) (d : Operand) : State :=
  (s.advance c).onGrp c fun x => { x with boardings := x.boardings ++ [⟨leave, op, expert, s.clk + 8, d, maskOf c.act⟩] }

/-- A trap of all active lanes. -/
def State.trapActive (s : State) (c : Ctx) (t : TrapInfo) : State := s.enterTraps c.core c.gid (fun _ => t) c.act

/-- BOARD (R257). -/
def execBoard (f : FI) (s : State) : Host.Outcome State Fault Refusal :=
  s.issue [dst32 f.d] fun s c =>
    let x := s.grp c
    if c.act.isEmpty then .done (s.advance c)
    else if x.tile.isEmpty then .done (s.trapActive c (tokenTrap c 1 0))
    else .done (s.queueBoard c false x.opid (tagExpert x.tileTag) f.d)

/-- BOARD.SEL (R257). -/
def execBoardSel (f : FI) (s : State) : Host.Outcome State Fault Refusal :=
  s.issue [dst32 f.d, src32 f.a] fun s c =>
    let x := s.grp c
    let v := (x.rd32 f.a c.low + f.imm.toNat) % 2 ^ 32
    if c.act.isEmpty then .done (s.advance c)
    else if bits v 31 16 ≠ 0 then .done (s.trapActive c (operandTrap c))
    else if c.mode = .u ∧ v % 256 ≠ x.opid then .done (s.trapActive c (privTrap c))
    else .done (s.queueBoard c false (v % 256) (bits v 15 8) f.d)

/-- BOARD.LEAVE (R257). -/
def execBoardLeave (f : FI) (s : State) : Host.Outcome State Fault Refusal :=
  s.issue [dst32 f.d] fun s c => .done (if c.act.isEmpty then s.advance c else s.queueBoard c true 0 0 f.d)

/-! ### XPRED (R251, R258) -/

/-- Distinct passes with a reservation. -/
def Ridge.resKeys (g : Ridge) : List Nat := distinct (g.reserved.map fun v => v.key)

/-- One predicted pair: accepted if it is a DEM pass and the die has room for its reservation (R251). -/
def Die.predict (d : Die) (rid op expert : Nat) : Option Die :=
  let key := op * 256 + expert
  let keys := d.ridge.resKeys
  match d.passEntry op expert with
  | some e =>
    if e.dem && (keys.contains key || decide (keys.length < 256)) then
      some { d with ridge := { d.ridge with reserved := d.ridge.reserved ++ [⟨key, some rid, false⟩] } }
    else none
  | none => none

/-- The pairs of a list predicted in order, with the number accepted. -/
def Die.predictAll (d : Die) (rid op : Nat) : List Nat → Die × Nat
  | [] => (d, 0)
  | e :: r =>
    match d.predict rid op e with
    | some d' => let q := d'.predictAll rid op r; (q.1, q.2 + 1)
    | none => d.predictAll rid op r

/-- XPRED (R258). -/
def execXpred (f : F3) (s : State) : Host.Outcome State Fault Refusal :=
  let k := f.fn.toNat
  s.laneOps [dst32 f.d, src32 f.a, src32 f.b, { srcRun f.c k false with noneOk := false }] (fun _ _ => false) fun c x s l =>
    let w := x.rd32 f.a l
    let b := x.rd32 f.b l
    match x.heldRow w with
    | .error e => .error (tokenTrap c e w)
    | .ok r =>
      if 256 ≤ b then .error (operandTrap c)
      else
        let run := x.rdRegs f.c l k
        let experts := (distinct ((List.range k).map fun i => run / 2 ^ (32 * i) % 256)).filter fun e => e != 255
        let (d, n) := ((s.die (dieOf c.core)).cancelPredictions r).predictAll r b experts
        let s := s.onDie (dieOf c.core) fun _ => d
        let keep := match f.d with | .s _ => l == c.low | _ => true
        .ok (if keep then s.onGrp c fun x => x.put32 f.d l n else s)

/-! ### CRSTAT, RIDGE (R259, R260) -/

/-- CRSTAT's GROUP value. -/
def Group.rideWord (x : Group) : Nat :=
  x.eject.toNat * 2 ^ 29 +
  match x.ride with
  | some r => 2 ^ 31 + r.opening.isSome.toNat * 2 ^ 30 + r.pin.toNat * 2 ^ 28 + r.place
  | none => 0

/-- CRSTAT's PASS value. -/
def Die.passWord (d : Die) (op expert : Nat) : Nat :=
  match d.passEntry op expert with
  | none => 0xFFFFFFFF
  | some e =>
    let open_ := e.pin && d.ridge.passes.any fun p => p.op == op && p.expert == expert && p.bind == d.bindOf op
    match d.ridge.stat op expert (d.bindOf op) with
    | some t => (if open_ then 1 else t.st) * 2 ^ 30 + t.read
    | none => if open_ then 2 ^ 30 else 0

/-- CRSTAT: everything but the .PASS form. -/
def State.crstat (s : State) (c : Ctx) (fn : Nat) : Nat :=
  let g := (s.die (dieOf c.core)).ridge
  match fn with
  | 0 => (s.grp c).rideWord
  | 1 => g.turns % 2 ^ 32
  | 2 => g.period
  | 3 => g.passes.length
  | _ => g.resKeys.length

/-- CRSTAT (R259): of the .PASS form each lane names its pass; the others give one value of the issue. -/
def execCrstat (f : FI) (s : State) : Host.Outcome State Fault Refusal :=
  let pass := decide (f.fn = 5)
  s.issue (if pass then [dst32 f.d, src32 f.a] else [dst32 f.d]) fun s c =>
    let x := s.grp c
    let v (l : Nat) : Nat := (x.rd32 f.a l + f.imm.toNat) % 2 ^ 32
    let fails := c.act.filter fun l => pass && decide (c.mode = .u) && v l % 256 != x.opid
    let value (l : Nat) : Nat :=
      if pass then (s.die (dieOf c.core)).passWord (v l % 256) (bits (v l) 15 8) else s.crstat c f.fn.toNat
    if !fails.isEmpty then .done (s.trapLanes c (fails.map fun l => (l, privTrap c)))
    else .done ((s.advance c).onGrp c fun x => x.wr c f.d false value)

/-- RIDGE.PAUSE (R260): a block read is made within one event, so none is in flight when it issues (log 26). -/
def execRidgePause (f : FI) (s : State) : Host.Outcome State Fault Refusal :=
  s.issueWith [] [dst32 f.d] (fun c _ => decide (c.mode ≠ .u)) fun s c =>
    if c.act.isEmpty then .done (s.advance c)
    else .done (((s.onRidge (dieOf c.core) fun g => { g with paused := true }).advance c).onGrp c fun x => x.wr c f.d false fun _ => 0)

/-- RIDGE.RESUME (R260): a release by the lowest active lane. -/
def execRidgeResume (f : FI) (s : State) : Host.Outcome State Fault Refusal :=
  s.issueWith [] [dst32 f.d] (fun c _ => decide (c.mode ≠ .u)) fun s c =>
    if c.act.isEmpty then .done (s.advance c)
    else if !s.mayRelease c.core c.gid 3 [c.low] then .stall
    else .done ((((s.tickLane c c.low).onRidge (dieOf c.core) fun g => { g with paused := false }).advance c).onGrp c fun x =>
      x.wr c f.d false fun _ => 0)

/-- RIDGE.SYNC (R260): the rotation is empty only when that of the turn is, and no entry stands ready for the next (R244). -/
def execRidgeSync (f : FI) (s : State) : Host.Outcome State Fault Refusal :=
  s.issueWith [] [dst32 f.d] (fun c _ => decide (c.mode ≠ .u)) fun s c =>
    let die := dieOf c.core
    let d := s.die die
    if c.act.isEmpty then .done (s.advance c)
    else if d.ridge.paused ∨ (d.ridge.rotation.isEmpty ∧ d.rotationNow.isEmpty) then
      .done ((s.advance c).onGrp c fun x => x.wr c f.d false fun _ => d.ridge.turns % 2 ^ 32)
    else
      let w : SyncWait := ⟨s.nextId, c.core, c.gid, f.d, maskOf c.act⟩
      .done (({ s with nextId := s.nextId + 1 }.onRidge die fun g => { g with syncs := g.syncs ++ [w] }).onGrp c fun x =>
        x.onLanes c.set fun _ k => { k with wait := .reply w.id })

/-! ### Retirement (R77, R223) -/

/-- A row that a retiring group still holds: parked with ORPHAN, or one row fewer to be forwarded (log 32). -/
def Die.orphan (d : Die) (r : Nat) : Die :=
  match d.recs.find? r with
  | some x => if 1 < x.join then d.onRec r fun x => { x with join := x.join - 1 } else d.park r 0xFFFF
  | none => d

/-- Whether a group may retire (R77): every copy-out of it has been carried out, and every KSTORE published. -/
def State.mayRetire (s : State) (core : Nat) (x : Group) : Bool :=
  x.live.isEmpty && (x.tags.all fun t => t.count == 0) &&
  !(s.accesses.any fun a => a.core == core && a.gid == x.gid && a.stage != .replying && a.isStore) &&
  !((s.die (dieOf core)).engine.any fun r => r.core == core && r.uid == x.uid && r.copiesOut) &&
  !((s.die (dieOf core)).pubs.any fun p => p.req.core == core && p.req.gid == x.gid)

/-- GROUP_RETIRE (R77): the window, the GROUPID and the places are given back; held rows are parked (R223). -/
def execGroupRetire (s : State) : Host.Outcome State Fault Refusal :=
  let core := s.turn.unit
  match s.group? core s.turn.item with
  | none => .next s
  | some x =>
    if !s.mayRetire core x then .next s
    else
      let die := dieOf core
      let s := s.leaveRide core x.gid false
      let s := s.onCore core fun k => k.giveUpBank x.uid
      let s := s.onCore core fun k => { k with groups := k.groups.erase x.gid }
      let rows := x.tile.filterMap fun t => match t with | .held r => some r | _ => none
      happened (if x.tile.isEmpty then s else (s.onDie die fun d => rows.foldl (fun d r => d.orphan r) d).noteDie die)

end Sys2Proof.Machine
end

