-- ==== Sys2Proof/Machine/Kv.lean ====
section
/-!
DEFINITION. The KV block engine (spec/15, R355 to R377): spaces, the inverted table, forks, bucket chains, signatures and gather
sets, as operations on the memory structures of a space. A translation failure discards everything a request has done (R365).
-/
namespace Sys2Proof.Machine

/-! ### Engine accesses (R365) -/

/-- An engine at work: the state, the clock so far, the highest W read, and the highest W read at a bucket head. -/
structure EngSt where
  s : State
  c : Nat
  w : Nat
  headW : Nat

/-- Work of an engine: it fails as a whole. -/
abbrev Eng := StateT EngSt (Except AgentFail)

/-- n bytes read. -/
def eget (g : Agent) (va n : Nat) : Eng Nat := fun e =>
  match e.s.agentGetSure g e.c va n with
  | .error f => .error f
  | .ok o => .ok (o.value, { e with s := o.s, c := o.c, w := o.w.elim e.w (stampMax e.w) })

/-- n bytes read by a copy engine (R354): uncorrectable sectors as zeros. -/
def egetCopy (g : Agent) (va n : Nat) : Eng Nat := fun e =>
  match e.s.agentGet g e.c va n with
  | .error f => .error f
  | .ok o => .ok (o.value, { e with s := o.s, c := o.c, w := o.w.elim e.w (stampMax e.w) })

/-- n bytes read of a bucket head. -/
def egetHead (g : Agent) (va n : Nat) : Eng Nat := fun e =>
  match e.s.agentGetSure g e.c va n with
  | .error f => .error f
  | .ok o => .ok (o.value, { e with s := o.s, c := o.c, w := o.w.elim e.w (stampMax e.w), headW := o.w.elim e.headW (stampMax e.headW) })

/-- n bytes written. -/
def eput (g : Agent) (va n v : Nat) : Eng Unit := fun e =>
  match e.s.agentPut g e.c va n v with
  | .error f => .error f
  | .ok (s, c) => .ok ((), { e with s := s, c := c })

/-- What only needs its translation now (R365): the physical addresses that a write of n bytes would reach. -/
def ewhere (g : Agent) (va n : Nat) : Eng (List Nat) := fun e =>
  match e.s.agentAddr g .store va n with
  | .error f => .error f
  | .ok (s, pa, repl) => .ok (if repl then [0, 1, 2, 3].map (replicaOf pa) else [pa], { e with s := s })

/-- n bytes cut at the 8 KiB pages: addresses and sizes. -/
def pagePieces : Nat → Nat → Nat → List (Nat × Nat)
  | 0, _, _ => []
  | fuel + 1, a, n => if n = 0 then [] else let k := min n (8192 - a % 8192); (a, k) :: pagePieces fuel (a + k) (n - k)

/-- The physical places of n bytes that are to be read (R365): addresses and sizes, a page at a time. -/
def ereads (g : Agent) (va n : Nat) : Eng (List (Nat × Nat)) :=
  (pagePieces (n / 8192 + 2) va n).mapM fun p => fun e =>
    match e.s.agentAddr g .load p.1 p.2 with
    | .error f => .error f
    | .ok (s, pa, _) => .ok ((pa, p.2), { e with s := s })

/-- The physical places of n bytes that are to be written: those of every replica, and the size, a page at a time. -/
def ewrites (g : Agent) (va n : Nat) : Eng (List (List Nat × Nat)) :=
  (pagePieces (n / 8192 + 2) va n).mapM fun p => do return (← ewhere g p.1 p.2, p.2)

/-- The request must wait; nothing is done. -/
def ewait {α : Type} : Eng α := fun _ => .error .busy

/-- n bytes at a virtual address written at their physical places with one stamp for each sector (R315). -/
def eputAt (g : Agent) (va : Nat) (pas : List Nat) (v n : Nat) : Eng Unit :=
  (sectorPieces (n / 32 + 2) (pas.headD 0) n).forM fun q => do
    let e ← get
    let o := q.1 - pas.headD 0
    let at_ := pas.map fun p => p + o
    if at_.any fun p => e.s.agentHeld g (va + o) p q.2 then ewait
    let st := e.s.stampAll g e.c (va + o) at_
    let t := at_.foldl (fun s p => s.agentPutAt g st p q.2 (v / 256 ^ o % 256 ^ q.2)) e.s
    set { e with s := t.agentLog e.s g (va + o) (at_.headD 0) q.2 st, c := st }

/-- Something done for each number below a bound, in ascending order. -/
def eachBelow (n : Nat) (f : Nat → Eng Unit) : Eng Unit := (List.range n).forM f

/-! ### Spaces (R355 to R357) -/

/-- A KV space (R356): its number, its descriptor's physical address, the agent that serves it, and the descriptor's fields. -/
structure Space where
  num : Nat
  dir : Nat
  g : Agent
  pool : Nat
  table : Nat
  links : Nat
  fmap : Nat
  forks : Nat
  heads : Nat
  cpool : Nat
  clink : Nat
  cfmap : Nat
  nblk : Nat
  cblk : Nat
  blkb : Nat
  d : Nat
  fmt : Nat
  hbits : Nat
  pset : Nat
  pid : Nat

/-- Bytes of a key row (R357). -/
def keyRow (fmt d : Nat) : Nat := if fmt = 0 then 2 * d else 4 * ((d + d / 32 + 3) / 4)

/-- A field of a descriptor: n bytes at an offset. -/
def descField (v off n : Nat) : Nat := v / 256 ^ off % 256 ^ n

/-- Whether a descriptor keeps the table of R356, and its ASID and VMID are those of the agent's roots (R365). -/
def spaceOk (g : Agent) (v : Nat) : Bool :=
  let f := descField v
  let d := f 0x54 2
  let fmt := f 0x56 1
  f 0 8 % 4096 == 0 && f 0 8 != 0 && decide (1 ≤ f 0x48 4) && decide (f 0x48 4 ≤ 1048576) && decide (2 ≤ f 0x4C 4) &&
  decide (f 0x4C 4 ≤ 16777216) && f 0x50 4 % 128 == 0 && decide (64 * keyRow fmt d ≤ f 0x50 4) && decide (8 ≤ d) &&
  decide (d ≤ 256) && d % 8 == 0 && (fmt == 0 || (fmt == 2 && d % 32 == 0)) && decide (6 ≤ f 0x57 1) && decide (f 0x57 1 ≤ 12) &&
  decide (f 0x58 1 ≤ 15) && f 0x59 1 == 1 && f 0x5E 2 == 0 && f 0x74 12 == 0 && f 0x5A 2 == bits g.pt 11 0 && f 0x5C 2 == bits g.vm 11 0

/-- The space that a descriptor describes. -/
def spaceOf (num dir : Nat) (g : Agent) (v : Nat) : Space :=
  let f := descField v
  { num := num, dir := dir, g := g, pool := f 0 8, table := f 8 8, links := f 0x10 8, fmap := f 0x18 8, forks := f 0x20 8,
    heads := f 0x28 8, cpool := f 0x30 8, clink := f 0x38 8, cfmap := f 0x40 8, nblk := f 0x48 4, cblk := f 0x4C 4,
    blkb := f 0x50 4, d := f 0x54 2, fmt := f 0x56 1, hbits := f 0x57 1, pset := f 0x58 1, pid := f 0x60 4 }

/-- A space opened by number; none where it is invalid (R355, R356, R365). A directory that cannot be read yet is waited for. -/
def openSpace (g : Agent) (num : Nat) : Eng (Option Space) := do
  let e ← get
  let dir := (e.s.die g.die).kvdir.toNat
  let base := bits dir 51 19 * 2 ^ 19 + 128 * num
  let p := { g with phys := true }
  if !bit dir 0 then return none
  match e.s.agentAddr p .load base 128 with
  | .error .busy => ewait
  | .error _ => return none
  | .ok _ =>
    let v ← eget p base 128
    return if spaceOk g v then some (spaceOf num base g v) else none

/-- A 4-byte field of the descriptor kept by hardware (R356). -/
def Space.hget (sp : Space) (off : Nat) : Eng Nat := eget { sp.g with phys := true } (sp.dir + off) 4
/-- A 4-byte field of the descriptor kept by hardware, written. -/
def Space.hput (sp : Space) (off v : Nat) : Eng Unit := eput { sp.g with phys := true } (sp.dir + off) 4 v

/-- A cursor of a space (R359, R360, R374): 0 block, 1 bucket block, 2 anchor. -/
def Space.cursor (sp : Space) (k : Nat) : Eng Nat := do
  let e ← get
  return ((e.s.die sp.g.die).cursors.find? (4 * sp.num + k)).getD 0
/-- A cursor of a space moved. -/
def Space.setCursor (sp : Space) (k v : Nat) : Eng Unit :=
  modify fun e => { e with s := e.s.onDie sp.g.die fun d => { d with cursors := d.cursors.put (4 * sp.num + k) v } }

/-- The address of a block. -/
def Space.blockAt (sp : Space) (j : Nat) : Nat := sp.pool + j * sp.blkb
/-- The address of a position's key row in a block (R357). -/
def Space.rowAt (sp : Space) (j p : Nat) : Nat := sp.blockAt j + p % 64 * keyRow sp.fmt sp.d

/-! ### The inverted table (R358, R359) -/

/-- A TABLE entry (R358). -/
structure KvEntry where
  seq : Nat
  lblk : Nat
  ref : Nat
  copy : Bool
  ovf : Bool
  valid : Bool
deriving DecidableEq, Repr

/-- The entry a word holds. -/
def KvEntry.ofWord (v : Nat) : KvEntry := ⟨bits v 63 44, bits v 43 24, bits v 23 16, bit v 2, bit v 1, bit v 0⟩
/-- The word of an entry. -/
def KvEntry.word (e : KvEntry) : Nat :=
  e.seq * 2 ^ 44 + e.lblk * 2 ^ 24 + e.ref * 2 ^ 16 + e.copy.toNat * 4 + e.ovf.toNat * 2 + e.valid.toNat

/-- A TABLE entry read. -/
def Space.entry (sp : Space) (j : Nat) : Eng KvEntry := return .ofWord (← eget sp.g (sp.table + 8 * j) 8)
/-- A TABLE entry written. -/
def Space.putEntry (sp : Space) (j : Nat) (e : KvEntry) : Eng Unit := eput sp.g (sp.table + 8 * j) 8 e.word
/-- A word of the overflow links. -/
def Space.ovl (sp : Space) (j : Nat) : Eng Nat := eget sp.g (sp.links + 4 * j) 4
/-- A word of the overflow links written. -/
def Space.putOvl (sp : Space) (j v : Nat) : Eng Unit := eput sp.g (sp.links + 4 * j) 4 v

/-- The eight places of a key (R359). -/
def Space.places (sp : Space) (q l : Nat) : List Nat :=
  let h := (q * 0x9E3779B1 % 2 ^ 32) ^^^ (l * 0x85EBCA77 % 2 ^ 32)
  (List.range 8).map fun i => (h + i) % sp.nblk

/-- The first of some places that holds a valid entry of a key. -/
def Space.probeAt (sp : Space) (q l : Nat) : List Nat → Eng (Option Nat)
  | [] => return none
  | j :: r => do
    let e ← sp.entry j
    if e.valid && e.seq == q && e.lblk == l then return some j else sp.probeAt q l r

/-- A key sought along the overflow list, from a link on. -/
def Space.chase (sp : Space) (q l : Nat) : Nat → Nat → Eng (Option Nat)
  | 0, _ => return none
  | n + 1, link => do
    if link = 0 then return none
    let e ← sp.entry (link - 1)
    if e.seq == q && e.lblk == l then return some (link - 1)
    let next ← sp.ovl (link - 1)
    sp.chase q l n next

/-- probe of R359. -/
def Space.probe (sp : Space) (q l : Nat) : Eng (Option Nat) := do
  match ← sp.probeAt q l (sp.places q l) with
  | some j => return some j
  | none =>
    let head ← sp.hget 0x6C
    sp.chase q l sp.nblk head

/-- A bit of a free map. -/
def mapBit (g : Agent) (base j : Nat) : Eng Bool := return bit (← eget g (base + j / 8) 1) (j % 8)
/-- A bit of a free map written. -/
def putMapBit (g : Agent) (base j : Nat) (v : Bool) : Eng Unit := do
  let b ← eget g (base + j / 8) 1
  eput g (base + j / 8) 1 (setBits b (j % 8) (j % 8) v.toNat)

/-- The first of some numbers whose bit of a free map is clear. -/
def firstFree (g : Agent) (base : Nat) : List Nat → Eng (Option Nat)
  | [] => return none
  | j :: r => do
    if ← mapBit g base j then firstFree g base r else return some j

/-- Numbers from a cursor on, wrapping at a bound. -/
def fromCursor (cur n : Nat) : List Nat := (List.range n).map fun i => (cur + i) % n

/-- An entry put on the overflow list. -/
def Space.toOverflow (sp : Space) (j : Nat) : Eng Unit := do
  let head ← sp.hget 0x6C
  sp.putOvl j head
  sp.hput 0x6C (j + 1)

/-- A block taken for a key. -/
def Space.take (sp : Space) (q l j : Nat) (ovf : Bool) : Eng Unit := do
  sp.putEntry j ⟨q, l, 1, false, ovf, true⟩
  putMapBit sp.g sp.fmap j true
  let n ← sp.hget 0x64
  sp.hput 0x64 (n - 1)

/-- allocate of R359; none is NOSPACE. -/
def Space.allocate (sp : Space) (q l : Nat) : Eng (Option Nat) := do
  if (← sp.hget 0x64) = 0 then return none
  match ← firstFree sp.g sp.fmap (sp.places q l) with
  | some j => sp.take q l j false; return some j
  | none =>
    let cur ← sp.cursor 0
    match ← firstFree sp.g sp.fmap (fromCursor cur sp.nblk) with
    | some j =>
      sp.toOverflow j
      sp.setCursor 0 (j + 1)
      sp.take q l j true
      return some j
    | none => return none

/-- An entry unlinked from the overflow list, whose part before it ends in a link that `put` writes. -/
def Space.unlink (sp : Space) (j : Nat) : Nat → (Nat → Eng Unit) → Nat → Eng Unit
  | 0, _, _ => return ()
  | n + 1, put, link => do
    if link = 0 then return ()
    let next ← sp.ovl (link - 1)
    if link = j + 1 then put next else sp.unlink j n (sp.putOvl (link - 1)) next

/-- A block freed (R359); one that a copy is reading waits for it (R363, R367). -/
def Space.freeBlock (sp : Space) (j : Nat) : Eng Unit := do
  let e ← sp.entry j
  if e.copy then ewait
  if e.ovf then
    let head ← sp.hget 0x6C
    sp.unlink j sp.nblk (sp.hput 0x6C) head
  eput sp.g (sp.table + 8 * j) 8 0
  putMapBit sp.g sp.fmap j false
  let n ← sp.hget 0x64
  sp.hput 0x64 (n + 1)

/-! ### Fork records (R360, R361) -/

/-- A fork record (R360). -/
structure Fork where
  hold : Nat
  len : Nat
  forked : Bool
  live : Bool
  depth : Nat
  fpos : Nat
  parent : Nat
deriving DecidableEq, Repr

/-- An unused record. -/
def Fork.zero : Fork := ⟨0, 0, false, false, 0, 0, 0⟩
/-- The record that 16 bytes hold. -/
def Fork.ofWord (v : Nat) : Fork := ⟨bits v 124 109, bits v 88 64, bit v 63, bit v 62, bits v 47 44, bits v 43 20, bits v 19 0⟩
/-- The 16 bytes of a record. -/
def Fork.word (f : Fork) : Nat :=
  f.hold * 2 ^ 109 + f.len * 2 ^ 64 + f.forked.toNat * 2 ^ 63 + f.live.toNat * 2 ^ 62 + f.depth * 2 ^ 44 + f.fpos * 2 ^ 20 + f.parent

/-- A fork record read. -/
def Space.fork (sp : Space) (q : Nat) : Eng Fork := return .ofWord (← eget sp.g (sp.forks + 16 * q) 16)
/-- A fork record written. -/
def Space.putFork (sp : Space) (q : Nat) (f : Fork) : Eng Unit := eput sp.g (sp.forks + 16 * q) 16 f.word

/-- resolve of R361 from a sequence or anchor on: the block, and whether it is inherited. -/
def Space.resolveFrom (sp : Space) (l : Nat) : Nat → Nat → Bool → Eng (Option (Nat × Bool))
  | 0, _, _ => return none
  | n + 1, x, inh => do
    match ← sp.probe x l with
    | some j => return some (j, inh)
    | none =>
      let r ← sp.fork x
      if !r.forked || decide ((r.fpos + 63) / 64 ≤ l) then return none else sp.resolveFrom l n r.parent true

/-- resolve of R361; a chain has at most 16 records (R360). -/
def Space.resolve (sp : Space) (q l : Nat) : Eng (Option (Nat × Bool)) := sp.resolveFrom l 17 q false

/-- The blocks that logical blocks below a bound resolve to: (L, block). -/
def Space.resolved (sp : Space) (q n : Nat) : Eng (List (Nat × Nat)) := do
  let rs ← (List.range n).mapM fun l => sp.resolve q l
  return (List.range n).zip rs |>.filterMap fun e => e.2.map fun r => (e.1, r.1)

/-- LEN raised to p + 1 and LIVE set (R367). -/
def Space.touch (sp : Space) (q p : Nat) : Eng Unit := do
  let r ← sp.fork q
  sp.putFork q { r with len := max r.len (p + 1), live := true }

/-! ### Bucket chains (R373, R374) -/

/-- A bucket head (R373). -/
structure Head where
  last : Nat
  lost : Bool
  first : Nat
  count : Nat
deriving DecidableEq, Repr

/-- The head that 16 bytes hold. -/
def Head.ofWord (v : Nat) : Head := ⟨bits v 87 64, bit v 63, bits v 55 32, bits v 31 0⟩

/-- The address of a head. -/
def Space.headAt (sp : Space) (q u : Nat) : Nat := sp.heads + (q * 2 ^ sp.hbits + u) * 16
/-- A head read. -/
def Space.head (sp : Space) (q u : Nat) : Eng Head := return .ofWord (← egetHead sp.g (sp.headAt q u) 16)
/-- A head's chain and LOST bit written; COUNT stands as it is. -/
def Space.putChain (sp : Space) (q u : Nat) (h : Head) : Eng Unit :=
  eput sp.g (sp.headAt q u + 4) 12 (h.first + h.lost.toNat * 2 ^ 31 + h.last * 2 ^ 32)
/-- A head's COUNT written. -/
def Space.putCount (sp : Space) (q u n : Nat) : Eng Unit := eput sp.g (sp.headAt q u) 4 n

/-- The lowest free bucket block at or after the cursor (R374). -/
def Space.takeBucket (sp : Space) : Eng (Option Nat) := do
  let n ← sp.hget 0x68
  if n = 0 then return none
  let cur ← sp.cursor 1
  match ← firstFree sp.g sp.cfmap (fromCursor cur sp.cblk) with
  | none => return none
  | some b =>
    putMapBit sp.g sp.cfmap b true
    sp.setCursor 1 (b + 1)
    sp.hput 0x68 (n - 1)
    return some b

/-- Slot n of a bucket written with a position and a signature (R373, R374); false where the entry is lost. -/
def Space.fileAt (sp : Space) (q u n p sig : Nat) : Eng Bool := do
  let h ← sp.head q u
  let v := p * 2 ^ 16 + sig
  if n % 64 ≠ 0 then
    eput sp.g (sp.cpool + 512 * h.last + 8 * (n % 64)) 8 v
    return true
  match ← sp.takeBucket with
  | none =>
    sp.putChain q u { h with lost := true }
    let k ← sp.hget 0x70
    sp.hput 0x70 (min (k + 1) (2 ^ 32 - 1))
    return false
  | some b =>
    if h.first = 0 then sp.putChain q u { h with first := b, last := b }
    else
      eput sp.g (sp.clink + 4 * h.last) 4 b
      sp.putChain q u { h with last := b }
    eput sp.g (sp.cpool + 512 * b) 8 v
    return true

/-- The bucket blocks of a chain freed, from one to another. -/
def Space.freeChain (sp : Space) (last : Nat) : Nat → Nat → Eng Unit
  | 0, _ => return ()
  | n + 1, b => do
    if b = 0 then return ()
    let next ← eget sp.g (sp.clink + 4 * b) 4
    putMapBit sp.g sp.cfmap b false
    let k ← sp.hget 0x68
    sp.hput 0x68 (k + 1)
    if b = last then return () else sp.freeChain last n next

/-- A sequence's or anchor's chains freed and its heads zeroed (R369). -/
def Space.freeHeads (sp : Space) (q : Nat) : Eng Unit :=
  eachBelow (2 ^ sp.hbits) fun u => do
    let h ← sp.head q u
    sp.freeChain h.last sp.cblk h.first
    eput sp.g (sp.headAt q u) 16 0

/-! ### Requests on forks and blocks (R366 to R369) -/

/-- Whether a KSTORE or a copy for a sequence of the space is still under way: requests are atomic (R363). -/
def Space.underWay (sp : Space) (q : Nat) : Eng Bool := do
  let d := (← get).s.die sp.g.die
  return d.pubs.any (fun p => p.space == sp.num && p.seq == q) || d.cows.any fun w => w.space == sp.num && w.req.word % 2 ^ 20 == q

/-- A free anchor, in rotation from the cursor (R360). -/
def Space.anchorFrom (sp : Space) : List Nat → Eng (Option Nat)
  | [] => return none
  | a :: r => do
    let f ← sp.fork a
    if f.live then sp.anchorFrom r else return some a

/-- The anchors in rotation order. -/
def Space.anchors (sp : Space) : Eng (List Nat) := do
  let cur ← sp.cursor 2
  return (fromCursor cur 0xEFFFF).map fun i => 0x10000 + i

/-- An entry under a new key; it goes to the overflow list where its place is none of the key's eight (R359, R366). -/
def Space.rekey (sp : Space) (j q l : Nat) : Eng Unit := do
  let e ← sp.entry j
  let far := !e.ovf && !(sp.places q l).contains j
  if far then sp.toOverflow j
  sp.putEntry j { e with seq := q, lblk := l, ovf := e.ovf || far }

/-- REF of a block raised by one. -/
def Space.share (sp : Space) (j : Nat) : Eng Unit := do
  let e ← sp.entry j
  sp.putEntry j { e with ref := e.ref + 1 }

/-- HOLD of an anchor raised by one. -/
def Space.hold (sp : Space) (a : Nat) : Eng Unit := do
  let f ← sp.fork a
  sp.putFork a { f with hold := f.hold + 1 }

/-- The part of KVFORK that gives a parent's own blocks to an anchor (R366). -/
def Space.split (sp : Space) (p f c a : Nat) (rp : Fork) (owned : List (Nat × Nat)) : Eng Unit := do
  sp.setCursor 2 (a - 0x10000 + 1)
  sp.putFork a { rp with live := true, hold := 2, len := f }
  owned.forM fun e => sp.rekey e.2 a e.1
  let n := 16 * 2 ^ sp.hbits
  let h ← eget sp.g (sp.headAt p 0) n
  eput sp.g (sp.headAt a 0) n h
  eput sp.g (sp.headAt p 0) n 0
  let r : Fork := ⟨0, f, true, true, rp.depth + 1, f, a⟩
  sp.putFork p r
  sp.putFork c r

/-- kvfork of R366: the code of R383. -/
def Space.kvfork (sp : Space) (p f c : Nat) : Eng Nat := do
  if ← sp.underWay p then ewait
  let rc ← sp.fork c
  if decide (0x10000 ≤ c) || rc.live then return 1
  let rp ← sp.fork p
  if f < rp.len then return 2
  if f = 0 then
    sp.putFork c { Fork.zero with live := true }
    return 0
  let n := (f + 63) / 64
  let ps ← (List.range n).mapM fun l => sp.probe p l
  let owned := (List.range n).zip ps |>.filterMap fun e => e.2.map fun j => (e.1, j)
  if !owned.isEmpty && rp.depth == 15 then return 3
  let blocks ← sp.resolved p n
  let refs ← blocks.mapM fun b => sp.entry b.2
  if refs.any fun e => e.ref == 255 then return 4
  let anchor ← if owned.isEmpty then pure none else sp.anchorFrom (← sp.anchors)
  if !owned.isEmpty && anchor.isNone then return 5
  blocks.forM fun b => sp.share b.2
  match anchor with
  | some a => sp.split p f c a rp owned
  | none =>
    sp.putFork c { rp with len := f }
    if rp.forked then sp.hold rp.parent
    sp.putFork p { rp with len := f }
  return 0

/-- Records freed upwards while nobody holds them (R369). -/
def Space.release (sp : Space) : Nat → Fork → Eng Unit
  | 0, _ => return ()
  | n + 1, r => do
    if !r.forked then return ()
    let a ← sp.fork r.parent
    if a.hold ≤ 1 then
      sp.freeHeads r.parent
      sp.putFork r.parent Fork.zero
      sp.release n a
    else sp.putFork r.parent { a with hold := a.hold - 1 }

/-- kvfree of R369: whether anything was freed. -/
def Space.kvfree (sp : Space) (q : Nat) : Eng Bool := do
  if ← sp.underWay q then ewait
  let r ← sp.fork q
  let blocks ← sp.resolved q ((r.len + 63) / 64)
  blocks.forM fun b => do
    let e ← sp.entry b.2
    if e.ref ≤ 1 then sp.freeBlock b.2 else sp.putEntry b.2 { e with ref := e.ref - 1 }
  sp.freeHeads q
  sp.putFork q Fork.zero
  sp.release 17 r
  return r.live || !blocks.isEmpty

/-! ### Signatures (R371, R372) -/

/-- The values of a key or query row (R357, R372). -/
def rowValues (fmt d v : Nat) : List Num :=
  (List.range d).map fun i =>
    if fmt = 0 then bf16.value (elemAt 16 v i) else scaledValue 2 (elemAt 8 v (d + i / 32)) (elemAt 8 v i)

/-- Whether an exact sum is above zero (R372). -/
def Num.positive : Num → Bool
  | .fin neg m _ => !neg && m != 0
  | .inf neg => !neg
  | .nan => false

/-- The signature of a row under a projection set (R372). -/
def Proj.signature (p : Proj) (fmt v : Nat) : Nat :=
  let k := rowValues fmt p.d v
  maskOf ((List.range 16).filter fun j =>
    (sumNum .rne (((p.rows[j]?).getD []).zipWith (fun a b => (bf16.value a).mul b) k)).positive)

/-- The bucket of a signature (R372). -/
def Space.bucket (sp : Space) (sig : Nat) : Nat := sig / 2 ^ (16 - sp.hbits)

/-- Whether a CPROJ is loading a projection set of the cluster of a core (R371). -/
def State.projLoads (s : State) (core set : Nat) : Bool :=
  s.accesses.any fun a => clusterOf a.core == clusterOf core && match a.kind with | .proj n _ _ => n == set | _ => false

/-- The projection set that a space requires, if the cluster of a core holds it (R371). -/
def State.projOf (s : State) (core : Nat) (sp : Space) : Option Proj :=
  match (clusterOf core).bind fun cl => (s.cluster cl).proj.find? sp.pset with
  | some p => if p.pid = sp.pid ∧ p.d = sp.d then some p else none
  | none => none

/-! ### Gather sets (R375 to R377) -/

/-- The buckets within a radius of one, in probe order (R375). -/
def probeOrder (b r q : Nat) : List Nat :=
  let one := if 1 ≤ r then (List.range b).map fun i => q ^^^ 2 ^ i else []
  let two := if 2 ≤ r then (List.range b).flatMap fun i => (List.range (b - 1 - i)).map fun k => q ^^^ 2 ^ i ^^^ 2 ^ (i + 1 + k) else []
  q :: one ++ two

/-- A position added to an ascending list without repeats. -/
def insertPos (p : Nat) : List Nat → List Nat
  | [] => [p]
  | q :: r => if p < q then p :: q :: r else if p = q then q :: r else q :: insertPos p r

/-- The entries of a chain, POS · 2^16 + signature: blocks left, the block, entries left. -/
def Space.chainEntries (sp : Space) : Nat → Nat → Nat → Eng (List Nat)
  | 0, _, _ => return []
  | n + 1, b, left => do
    let es ← (List.range (min left 64)).mapM fun i => eget sp.g (sp.cpool + 512 * b + 8 * i) 8
    let ps := es.map fun e => e % 2 ^ 40
    if left ≤ 64 then return ps
    let next ← eget sp.g (sp.clink + 4 * b) 4
    return ps ++ (← sp.chainEntries n next (left - 64))

/-- What some buckets of a sequence or anchor hold at the positions of a range, `pick` of each entry added to a list; or the reason
of a fallback (R376, R377). `chain` is CHAIN; none sets no limits. -/
def Space.gatherBuckets (sp : Space) (pick : Nat → Nat) (chain : Option Nat) (x lo hi : Nat) :
    List Nat → List Nat → Eng (Except Nat (List Nat))
  | [], acc => return .ok acc
  | u :: r, acc => do
    let h ← sp.head x u
    let blocks := (h.count + 63) / 64
    match chain with
    | some k =>
      if h.lost then return .error 3
      if k < blocks then return .error 2
    | none => pure ()
    let es ← sp.chainEntries blocks h.first h.count
    sp.gatherBuckets pick chain x lo hi r
      ((es.filter fun e => decide (lo ≤ e / 2 ^ 16) && decide (e / 2 ^ 16 < hi)).foldl (fun a e => insertPos (pick e) a) acc)

/-- The gather set of R376, up the chain of records. -/
def Space.gather (sp : Space) (pick : Nat → Nat) (chain : Option Nat) (us : List Nat) :
    Nat → Nat → Nat → List Nat → Eng (Except Nat (List Nat))
  | 0, _, _, acc => return .ok acc
  | n + 1, x, hi, acc => do
    let r ← sp.fork x
    match ← sp.gatherBuckets pick chain x (if r.forked then r.fpos else 0) hi us acc with
    | .error e => return .error e
    | .ok acc => if r.forked then sp.gather pick chain us n r.parent (min hi r.fpos) acc else return .ok acc

/-- POS of an entry. -/
def entryPos (e : Nat) : Nat := e / 2 ^ 16

/-- An item of a gather's output (R376). -/
def Space.item (sp : Space) (q p : Nat) : Eng Nat := do
  match ← sp.resolve q (p / 64) with
  | some (j, _) => return p + (j * 64 + p % 64) * 2 ^ 32
  | none => return p + 0xFFFFFFFF * 2 ^ 32

/-! ### Moving a sequence (R370) -/

/-- Entries filed and published at once in a space, ascending. -/
def Space.fileAll (sp : Space) (q : Nat) (es : List Nat) : Eng Unit :=
  es.forM fun e => do
    let sig := e % 2 ^ 16
    let u := sp.bucket sig
    let h ← sp.head q u
    if ← sp.fileAt q u h.count (entryPos e) sig then sp.putCount q u (h.count + 1)

/-- Blocks allocated at the destination and copied; false is a refusal. -/
def Space.copyBlocks (dst src : Space) (n : Nat) : List (Nat × Nat) → Eng Bool
  | [] => return true
  | (l, j) :: r => do
    match ← dst.allocate n l with
    | none => return false
    | some k =>
      let v ← eget src.g (src.blockAt j) (min src.blkb dst.blkb)
      eput dst.g (dst.blockAt k) (min src.blkb dst.blkb) v
      dst.copyBlocks src n r

/-- The KV move of a space (R370): sequence q of the source becomes sequence n of the destination; false is a refusal. -/
def Space.move (src dst : Space) (q n : Nat) : Eng Bool := do
  let r ← src.fork q
  let blocks ← src.resolved q ((r.len + 63) / 64)
  if !(← dst.copyBlocks src n blocks) then return false
  match ← src.gather id none (List.range (2 ^ src.hbits)) 17 q (2 ^ 25) [] with
  | .ok es => dst.fileAll n es
  | .error _ => pure ()
  dst.putFork n { Fork.zero with live := true, len := r.len }
  let _ ← src.kvfree q
  return true

/-- The KV moves of a steal (R395): 0, or code 3 SPACE or 4 NOSPACE. -/
def kvMoveAll (from_ into : Agent) (q n : Nat) : List Nat → Eng Nat
  | [] => return 0
  | k :: r => do
    match ← openSpace from_ k with
    | none => kvMoveAll from_ into q n r
    | some src =>
      if !(← src.fork q).live then kvMoveAll from_ into q n r
      else match ← openSpace into k with
        | none => return 3
        | some dst => if ← src.move dst q n then kvMoveAll from_ into q n r else return 4

end Sys2Proof.Machine
end

