-- ==== Sys2Proof/Machine/Cairn.lean ====
section
/-!
DEFINITION. The instructions of spec/15 (R379 to R388), the requests they make, and the events of the KV block engine, its gather
port and the cluster reduction unit.
-/
namespace Sys2Proof.Machine

/-! ### What a request does (R366 to R385) -/

/-- What becomes of a request: a result for D and PD, a trap (kind, cause, TVAL), a copy of a block, or a key stored. -/
inductive KvOut
  | done (d : Nat) (pd : Bool)
  | trap (kind cause tval : Nat)
  | copy (w : Cow)
  | stored (p : Publication)

/-- SPACE of a KV address word (R380). -/
def kvSpace (w : Nat) : Nat := bits w 55 44
/-- POS of a KV address word. -/
def kvPos (w : Nat) : Nat := bits w 43 20
/-- SEQ of a KV address word. -/
def kvSeq (w : Nat) : Nat := w % 2 ^ 20

/-- A request waits for a copy of its sequence to end: requests are atomic (R363). -/
def Space.afterCopy (sp : Space) (q : Nat) : Eng Unit := do
  if ((← get).s.die sp.g.die).cows.any fun w => w.space == sp.num && kvSeq w.req.word == q then ewait

/-- KVMAP (R381). -/
def Space.kvmap (sp : Space) (w : Nat) (info : Bool) : Eng KvOut := do
  sp.afterCopy (kvSeq w)
  match ← sp.resolve (kvSeq w) (kvPos w / 64) with
  | none => return .done 0 false
  | some (j, inh) =>
    if !info then return .done (sp.blockAt j) true
    let e ← sp.entry j
    return .done (2 ^ 63 + inh.toNat * 2 ^ 62 + e.copy.toNat * 2 ^ 61 + e.ref * 2 ^ 40 + e.seq * 2 ^ 20 + j) true

/-- kvapp of R367. A copy's blocks are translated with the request (R365). -/
def Space.kvapp (sp : Space) (r : KvReq) : Eng KvOut := do
  let w := r.word
  let q := kvSeq w
  let l := kvPos w / 64
  sp.afterCopy q
  match ← sp.resolve q l with
  | none =>
    match ← sp.allocate q l with
    | none => return .done 1 false
    | some j =>
      sp.touch q (kvPos w)
      return .done (sp.blockAt j) true
  | some (e, _) =>
    let t ← sp.entry e
    if t.ref = 1 then
      if t.copy then ewait
      sp.touch q (kvPos w)
      return .done (sp.blockAt e) true
    if 64 ≤ ((← get).s.die sp.g.die).cows.length then ewait
    match ← sp.allocate q l with
    | none => return .done 1 false
    | some j =>
      let reads ← ereads sp.g (sp.blockAt e) sp.blkb
      let writes ← ewrites sp.g (sp.blockAt j) sp.blkb
      let t ← sp.entry e
      sp.putEntry e { t with copy := true, ref := t.ref - 1 }
      sp.touch q (kvPos w)
      let at_ ← ewhere sp.g (sp.table + 8 * e) 8
      return .copy ⟨r.id, r, sp.num, e, sp.blockAt j, (← get).c, reads, writes, at_, sp.table + 8 * e⟩

/-- The bytes of a key or query row in the requester's partition (R384, R385), once its earlier copies have landed (R346); or the
trap of a row that does not fit. -/
def Space.rowBytes (sp : Space) (r : KvReq) : Eng (Except KvOut Nat) := do
  let s := (← get).s
  let k := s.core r.core
  let n := keyRow sp.fmt sp.d
  let p := k.partBase r.slot + r.b
  if k.partSize r.slot < r.b + n then return .error (.trap 10 causeRange r.b)
  if s.spadOwed r.core (s.group r.core r.gid).uid r.gid r.id [(p, n)] then ewait
  return .ok (k.copyRead p n).1

/-- kstore of R374, after the checks of R384. -/
def Space.kstore (sp : Space) (r : KvReq) : Eng KvOut := do
  let q := kvSeq r.word
  let p := kvPos r.word
  sp.afterCopy q
  if (← get).s.projLoads r.core sp.pset then ewait
  match (← get).s.projOf r.core sp with
  | none => return .trap 15 2 r.word
  | some pj =>
    match ← sp.rowBytes r with
    | .error t => return t
    | .ok v =>
      match ← sp.resolve q (p / 64) with
      | none => return .trap 15 3 r.word
      | some (j, _) =>
        let e ← sp.entry j
        if 1 < e.ref then return .trap 15 4 r.word
        if e.copy then ewait
        eput sp.g (sp.rowAt j p) (keyRow sp.fmt sp.d) v
        let sig := pj.signature sp.fmt v
        let u := sp.bucket sig
        let h ← sp.head q u
        let ahead := ((← get).s.die sp.g.die).pubs.filter fun b => b.space == sp.num && b.seq == q && b.bucket == u && !b.lost
        let n := h.count + ahead.length
        let kept ← sp.fileAt q u n p sig
        let f ← sp.fork q
        sp.putFork q { f with len := max f.len (p + 1) }
        let at_ ← ewhere sp.g (sp.headAt q u) 4
        return .stored
          { id := r.id, req := r, space := sp.num, seq := q, bucket := u, index := n, sig := sig, lost := !kept, stamp := (← get).c,
            headAt := at_, headVa := sp.headAt q u }

/-- D of CGATH (R385). -/
def gatherWord (count sig reason : Nat) : Nat := count + sig * 2 ^ 32 + (if reason = 0 then 0 else 2 ^ 48 + reason * 2 ^ 49)

/-- The gather of CGATH (R376, R377, R385). -/
def Space.cgath (sp : Space) (r : KvReq) : Eng KvOut := do
  let q := kvSeq r.word
  if (← get).s.projLoads r.core sp.pset then ewait
  match (← get).s.projOf r.core sp with
  | none => return .trap 15 2 r.word
  | some pj =>
    match ← sp.rowBytes r with
    | .error t => return t
    | .ok v =>
      let sig := pj.signature sp.fmt v
      let us := probeOrder sp.hbits (bits r.ofs 21 20) (sp.bucket sig)
      match ← sp.gather entryPos (some (bits r.ofs 19 12)) us 17 q (kvPos r.word + 1) [] with
      | .error e => return .done (gatherWord 0 sig e) true
      | .ok ps =>
        if bits r.ofs 11 0 + 1 < ps.length then return .done (gatherWord 0 sig 1) true
        let items ← ps.mapM fun p => sp.item q p
        modify fun e => { e with s := e.s.onCore r.core fun k => k.spadWrite (k.partBase r.slot + r.c) (8 * ps.length) (packElems 64 items) }
        return .done (gatherWord ps.length sig 0) false

/-- KVFREE.ALL (R383): every valid space of the die. -/
def kvfreeAll (g : Agent) (q : Nat) : Eng KvOut := do
  let freed ← (List.range 4096).mapM fun n => do
    match ← openSpace g n with
    | some sp => sp.kvfree q
    | none => return false
  return .done (if freed.any id then 0 else 1) false

/-- The agent of a request (R365): the engine translates through the roots of the lane's slot; its accesses are no U-mode accesses
(R270; log 36). -/
def State.kvAgent (s : State) (r : KvReq) : Agent := { (s.agentFor r.core r.gid r.lane r.slot .s).forSeqno r.seqno with rd := r.rd }

/-- A request as the engine or the gather port carries it out. -/
def kvBody (g : Agent) (r : KvReq) : Eng KvOut := do
  if r.kind = .freeAll then return ← kvfreeAll g (kvSeq r.word)
  match ← openSpace g (kvSpace r.word) with
  | none => return .trap 15 1 r.word
  | some sp =>
    match r.kind with
    | .map => sp.kvmap r.word false
    | .info => sp.kvmap r.word true
    | .app => sp.kvapp r
    | .fork => return .done (← sp.kvfork (kvSeq r.word) (kvPos r.word) (r.b % 2 ^ 20)) false
    | .free => return .done (if ← sp.kvfree (kvSeq r.word) then 0 else 1) false
    | .freeAll => return .done 1 false
    | .kstore => sp.kstore r
    | .gath _ => sp.cgath r

/-- Work for a request's lane from a clock. -/
def State.kvRun {α : Type} (s : State) (r : KvReq) (c : Nat) (m : Eng α) : Except AgentFail (α × EngSt) :=
  let k := (s.group r.core r.gid).lane r.lane
  m.run ⟨s, c, k.p, k.h⟩

/-! ### Replies (R380, R388) -/

/-- Whether a result of a request is 32 bits wide (R383). -/
def KvKind.narrow : KvKind → Bool
  | .fork => true
  | .free => true
  | .freeAll => true
  | _ => false

/-- A request's result reaches its lane: D, PD and clocks. -/
def State.kvReply (s : State) (r : KvReq) (d : Nat) (pd : Bool) (e : EngSt) (acquire : Bool) : State :=
  if r.orphan then s
  else s.onGroup r.core r.gid fun x =>
    (x.put r.dest (!r.kind.narrow) r.lane d).onLane r.lane fun k =>
      let k := { k.setPred r.pd pd with c := stampMax k.c e.c, p := stampMax k.p e.w }
      if acquire then k.acquire e.headW else k

/-- Whether a request of an instruction is still to be answered. -/
def Die.kvOpen (d : Die) (batch : Nat) : Bool :=
  d.kvq.any (fun r => r.batch == batch) || d.gathers.any (fun r => r.batch == batch) || d.cows.any fun w => w.req.batch == batch

/-- The PC set of a request goes on when every reply is back (R380). -/
def State.kvEnd (s : State) (r : KvReq) : State :=
  if (s.die (dieOf r.core)).kvOpen r.batch then s else s.onCore r.core fun k => k.wakeReply r.gid r.batch

/-- A lane's request fails with a trap (R388): it stands at the instruction, and its tag drops. -/
def State.kvTrap (s : State) (r : KvReq) (kind cause tval : Nat) : State :=
  let s := s.onGroup r.core r.gid fun x => match r.tag with | some k => x.onTag k Tag.dec | none => x
  if r.orphan then s
  else
    let s := s.onLane r.core r.gid r.lane fun k => { k with wait := .none, pc := r.pc }
    s.enterTrap r.core r.gid r.lane ⟨kind, cause, r.pc, tval, 0, none⟩

/-- A lane's request meets uncorrectable data (R444): it is given up undone, its tag drops, and the lane takes UNCORR at the instruction. -/
def State.kvUncorr (s : State) (r : KvReq) (pa : Nat) : State :=
  let s := s.onGroup r.core r.gid fun x => match r.tag with | some k => x.onTag k Tag.dec | none => x
  if r.orphan then s else s.uncorrAgain r.core r.gid r.lane r.pc pa (2 ^ r.lane)

/-- The record of a request that cannot translate an address (R365). -/
def State.kvFault (s : State) (r : KvReq) (va : Nat) (f : XFail) : State :=
  s.postFault (dieOf r.core) (s.engineFault (s.kvAgent r) r.core r.gid r.lane r.slot r.seqno va f)

/-! ### The engine's events (R363, R367, R374) -/

/-- Whether one request is taken before another (R363): order of arrival, then ascending stamp key, a lane's not below those of the lower
lanes of its instruction (R380). -/
def KvReq.before (a b : KvReq) : Bool :=
  decide (a.since < b.since) ||
  (a.since == b.since && waitsBefore (a.order, a.core, a.gid, a.lane) (b.order, b.core, b.gid, b.lane))

/-- Whether a lower lane of a request's instruction has still to apply, so that it waits (R380). -/
def KvReq.waitsFor (r : KvReq) (q : List KvReq) : Bool := q.any fun a => a.batch == r.batch && decide (a.lane < r.lane)

/-- Whether a request can be taken up now: it waits neither for the pager nor for a copy. -/
def State.kvReady (s : State) (r : KvReq) : Bool :=
  r.fault.isNone && match s.kvRun r r.clock (kvBody (s.kvAgent r) r) with | .error .busy => false | _ => true

/-- A request out of its die's queue. -/
def State.dropKv (s : State) (r : KvReq) : State :=
  s.onDie (dieOf r.core) fun d => { d with kvq := d.kvq.filter fun q => q.id != r.id, gathers := d.gathers.filter fun q => q.id != r.id }

/-- A KSTORE is over (R384): D, the tag, the lane's clock. -/
def State.kstoreEnd (s : State) (p : Publication) (stamp : Nat) : State :=
  s.onGroup p.req.core p.req.gid fun x =>
    let x := match p.req.tag with | some k => x.onTag k fun t => t.drop stamp | none => x
    if p.req.orphan then x
    else (x.put64 p.req.dest p.req.lane (p.sig + p.lost.toNat * 2 ^ 16)).onLane p.req.lane fun k => { k with c := stampMax k.c stamp }

/-- KV_REQUEST_PERFORM (R363): the first of the requests that can be taken up; in the clk in which it comes others may still come. -/
def execKvRequestPerform (s : State) : Host.Outcome State Fault Refusal :=
  let die := s.turn.unit
  let q := (s.die die).kvq
  match q.find? fun r => r.id == s.turn.item with
  | none => .next s
  | some r =>
    if r.fault.isSome || decide (s.clk ≤ r.since) || r.waitsFor q || q.any (fun a => a.before r && !a.waitsFor q && s.kvReady a) then .next s
    else match s.kvRun r r.clock (kvBody (s.kvAgent r) r) with
      | .error .busy => .next s
      | .error .addr => happened (((s.dropKv r).kvTrap r 15 1 r.word).kvEnd r)
      | .error (.uncorr pa) => happened (((s.dropKv r).kvUncorr r pa).kvEnd r)
      | .error (.xlate f va) =>
        happened ((s.kvFault r va f).onDie die fun d =>
          { d with kvq := d.kvq.map fun a => if a.id = r.id then { a with fault := some va } else a })
      | .ok (out, e) =>
        match out with
        | .done d pd => happened (((e.s.dropKv r).kvReply r d pd e false).kvEnd r)
        | .trap kind cause tval => happened (((s.dropKv r).kvTrap r kind cause tval).kvEnd r)
        | .copy w => happened ((e.s.dropKv r).onDie die fun d => { d with cows := d.cows ++ [w] })
        | .stored p =>
          let t := e.s.dropKv r
          let t := if p.lost then t.kstoreEnd p p.stamp else t.onDie die fun d => { d with pubs := d.pubs ++ [p] }
          happened (t.kvEnd r)

/-- The copy of a shared block (R367): COPY falls when no other copy reads the block. -/
def cowBody (g : Agent) (w : Cow) : Eng Unit := do
  let p := { g with phys := true }
  let vs ← w.reads.mapM fun q => egetCopy p q.1 q.2
  let v := (w.reads.zip vs).foldr (fun q v => q.2 + 256 ^ q.1.2 * v) 0
  let _ ← w.writes.foldlM (fun (v, va) q => do
    eputAt g va q.1 (v % 256 ^ q.2) q.2
    return (v / 256 ^ q.2, va + q.2)) (v, w.block)
  let others := ((← get).s.die g.die).cows.any fun o => o.id != w.id && o.space == w.space && o.entry == w.entry
  let t := (← get).s.tableRead (w.entryAt.headD 0) 8
  eputAt g w.entryVa w.entryAt ({ KvEntry.ofWord t with copy := others }).word 8

/-- KV_COW_COPY_READ (R367, R368). -/
def execKvCowCopyRead (s : State) : Host.Outcome State Fault Refusal :=
  let die := s.turn.unit
  match (s.die die).cows.find? (fun w => w.id == s.turn.item) with
  | none => .next s
  | some w =>
    match s.kvRun w.req w.clock (cowBody (s.kvAgent w.req) w) with
    | .error _ => .next s
    | .ok (_, e) =>
      let t := e.s.onDie die fun d => { d with cows := d.cows.filter fun o => o.id != w.id }
      happened ((t.kvReply w.req w.block true { e with headW := e.c } true).kvEnd w.req)

/-- KSTORE_PUBLISH (R374): the oldest unpublished entry of a bucket raises COUNT, as a release. -/
def execKstorePublish (s : State) : Host.Outcome State Fault Refusal :=
  let die := s.turn.unit
  let ps := (s.die die).pubs
  match ps.find? (fun p => p.id == s.turn.item) with
  | none => .next s
  | some p =>
    if ps.any fun o => o.space == p.space && o.seq == p.seq && o.bucket == p.bucket && decide (o.index < p.index) then .next s
    else
      let g := { s.kvAgent p.req with orders := true }
      if p.headAt.any fun a => s.agentHeld g p.headVa a 4 then .next s else
      let st := s.stampAll g p.stamp p.headVa p.headAt
      let t := (p.headAt.foldl (fun t a => t.agentPutAt g st a 4 (p.index + 1)) s).agentLog s g p.headVa (p.headAt.headD 0) 4 st
      happened ((t.kstoreEnd p st).onDie die fun d => { d with pubs := d.pubs.filter fun o => o.id != p.id })

/-- GATHER_PORT_REPLY (R376, R380, R385): a fallback of CGATH.TRAP is pending for its lane (R388). -/
def execGatherPortReply (s : State) : Host.Outcome State Fault Refusal :=
  let die := s.turn.unit
  match (s.die die).gathers.find? (fun r => r.id == s.turn.item && r.fault.isNone && !r.waitsFor (s.die die).gathers) with
  | none => .next s
  | some r =>
    match s.kvRun r r.clock (kvBody (s.kvAgent r) r) with
    | .error .busy => .next s
    | .error (.xlate f va) =>
      happened ((s.kvFault r va f).onDie die fun d =>
        { d with gathers := d.gathers.map fun a => if a.id = r.id then { a with fault := some va } else a })
    | .error (.uncorr pa) => happened (((s.dropKv r).kvUncorr r pa).kvEnd r)
    | .ok (.done d dense, e) =>
      let t := (e.s.dropKv r).kvReply r d false e (r.sem == 2)
      let t := if dense && decide (r.kind = .gath true) && !r.orphan then
        t.addPending r.core r.gid r.lane ⟨16, bits d 51 49, d, 0, none, none⟩ else t
      happened (t.kvEnd r)
    | .ok (.trap kind cause tval, _) => happened (((s.dropKv r).kvTrap r kind cause tval).kvEnd r)
    | _ => happened (((s.dropKv r).kvTrap r 15 1 r.word).kvEnd r)

/-! ### The instructions (R379 to R385) -/

/-- Requests of a die that are queued or running (R363, R364): a KSTORE runs until it has published (R374). -/
def Die.kvCount (d : Die) : Nat := d.kvq.length + d.cows.length + d.pubs.length

/-- A lane's request as its instruction makes it; `go` are the lanes that make one. -/
def State.kvReq (s : State) (c : Ctx) (kind : KvKind) (go : List Nat) (batch i l word : Nat) (dest : Operand) : KvReq :=
  let k := (s.grp c).lane l
  { id := s.nextId + 1 + i, core := c.core, gid := c.gid, lane := l, slot := c.slot, mode := c.mode, seqno := (s.grp c).seqno, pc := c.pc,
    kind := kind, word := word, b := 0, c := 0, ofs := 0, sem := 0, scope := 0, rd := 0,
    dest := match dest with | .s _ => if l = c.low then dest else .none | _ => dest,
    pd := none, tag := none, clock := k.c, horizon := k.h,
    order := (s.grp c).maxC (go.filter fun m => decide (m ≤ l)), batch := batch, since := s.clk, fault := none, orphan := false }

/-- A KV instruction (R380): transactional lanes abort; in an irrevocable run its accesses end idempotence (R341, R424); a check that fails traps all other active lanes; a U-mode lane that names an
anchor traps alone; the others' requests go to the engine or its gather port, and the set stalls. `check` gives kind, cause
and address, `at_` the address of a lane that fails none (R412); `release` the order of R303 with which a release goes. -/
def State.kvIssue (s : State) (uses : List Use) (word : Operand) (kind : KvKind) (clears : Bool) (dest : Operand)
    (release : Option Nat) (at_ : Group → Nat → Nat) (check : State → Ctx → Nat → Option (Nat × Nat × Nat)) (mk : Group → Nat → KvReq → KvReq) :
    Host.Outcome State Fault Refusal :=
  s.issue uses fun s c =>
    let x := s.grp c
    let (tx, ls) := c.act.partition x.inTx
    let w (l : Nat) : Nat := x.rd64 word l
    let bad (l : Nat) : Option (Nat × Nat × Nat) := if bits (w l) 63 56 ≠ 0 then some (6, 0, 0) else none
    match (ls.findSome? bad).or (ls.findSome? (check s c)) with
    | some (k, cause, _) =>
      let own (l : Nat) : Nat × Nat := if k = 10 then ((check s c l).elim (cause, at_ x l) fun e => e.2) else (cause, 0)
      .done ((s.abortCopies c tx).enterTraps c.core c.gid (fun l => ⟨k, (own l).1, c.pc, (own l).2, 0, none⟩) ls)
    | none =>
      let (fails, go) := ls.partition fun l => decide (c.mode = .u) && decide (0x10000 ≤ kvSeq (w l))
      let trap (s : State) : State := s.enterTraps c.core c.gid (fun l => ⟨15, 5, c.pc, w l, 0, none⟩) fails
      let d := s.die (dieOf c.core)
      let port := match kind with | .gath _ => true | _ => false
      if go.isEmpty then
        .done (trap (((s.advance c).retry c fails).abortCopies c tx))
      else if (match release with | some scope => !s.mayRelease c.core c.gid scope go | none => false) ||
          (!port && decide (4096 < d.kvCount + go.length)) || go.any fun l => !s.laneMayIssue c false 0 l then .stall
      else
        let batch := s.nextId
        let reqs := mapIdxFrom (fun i l => mk x l (s.kvReq c kind go batch i l (w l) dest)) 0 go
        let t := { s with nextId := s.nextId + 1 + go.length }.onDie (dieOf c.core) fun d =>
          if port then { d with gathers := d.gathers ++ reqs } else { d with kvq := d.kvq ++ reqs }
        let t := t.onGrp c fun x =>
          let x := reqs.foldl (fun x r => match r.tag with | some k => x.onTag k Tag.add | none => x) x
          let x := x.onLanes (c.set.filter fun l => !tx.contains l && !fails.contains l) fun _ k => { k with wait := .reply batch }
          if clears || go.any (fun l => (x.lane l).tx.active) then { x with idem := false } else x
        .done (trap (t.abortCopies c tx))

/-- No address. -/
def noAt (_ : Group) (_ : Nat) : Nat := 0
/-- The scratchpad address that a lane names in B (R384, R385). -/
def rowAt (o : Operand) (x : Group) (l : Nat) : Nat := bits (x.rd32 o l) 18 0
/-- No further check. -/
def noCheck (_ : State) (_ : Ctx) (_ : Nat) : Option (Nat × Nat × Nat) := none

/-- KVMAP (R381). -/
def execKvmap (f : F3) (s : State) : Host.Outcome State Fault Refusal :=
  s.kvIssue [dst64 f.d, src64 f.a] f.a .map false f.d none noAt noCheck fun _ _ r => { r with pd := f.pd }
/-- KVMAP.INFO (R381). -/
def execKvmapInfo (f : F3) (s : State) : Host.Outcome State Fault Refusal :=
  s.kvIssue [dst64 f.d, src64 f.a] f.a .info false f.d none noAt noCheck fun _ _ r => { r with pd := f.pd }
/-- KVAPP (R382). -/
def execKvapp (f : F3) (s : State) : Host.Outcome State Fault Refusal :=
  s.kvIssue [dst64 f.d, src64 f.a] f.a .app true f.d none noAt noCheck fun _ _ r => { r with pd := f.pd }
/-- KVFORK (R383). -/
def execKvfork (f : F3) (s : State) : Host.Outcome State Fault Refusal :=
  s.kvIssue [dst32 f.d, src64 f.a, src32 f.b] f.a .fork true f.d none noAt
    (fun s c l => if bits ((s.grp c).rd32 f.b l) 31 20 ≠ 0 then some (6, 0, 0) else none) fun x l r => { r with b := x.rd32 f.b l }

/-- KVFREE (R383): POS must be zero, as a reserved field (R380). -/
def State.kvFreeIssue (s : State) (f : F3) (kind : KvKind) : Host.Outcome State Fault Refusal :=
  s.kvIssue [dst32 f.d, src64 f.a] f.a kind true f.d none noAt
    (fun s c l => if kvPos ((s.grp c).rd64 f.a l) ≠ 0 then some (6, 0, 0) else none) fun _ _ r => r
/-- KVFREE (R383). -/
def execKvfree (f : F3) (s : State) : Host.Outcome State Fault Refusal := s.kvFreeIssue f .free
/-- KVFREE.ALL (R383). -/
def execKvfreeAll (f : F3) (s : State) : Host.Outcome State Fault Refusal := s.kvFreeIssue f .freeAll

/-- The check at issue of a scratchpad row's address (R384, R385): alignment, then the partition. -/
def State.rowFail (s : State) (c : Ctx) (a align n : Nat) : Option (Nat × Nat × Nat) :=
  if a % align ≠ 0 then some (10, causeAlign, a)
  else if (s.core c.core).partSize c.slot < a + n then some (10, causeRange, a) else none

/-- KSTORE (R384). -/
def execKstore (f : FM) (s : State) : Host.Outcome State Fault Refusal :=
  s.kvIssue [dst64 f.d, src64 f.a, src32 f.b, tagUse f.c] f.a .kstore true f.d (some f.scope.toNat) (rowAt f.b)
    (fun s c l => s.rowFail c (bits ((s.grp c).rd32 f.b l) 18 0) 4 1)
    fun x l r => { r with b := bits (x.rd32 f.b l) 18 0, tag := tagOf f.c, sem := f.sem.toNat, scope := f.scope.toNat, rd := f.rd.toNat }

/-- CGATH (R385). -/
def State.cgathIssue (s : State) (f : FM) (trap : Bool) : Host.Outcome State Fault Refusal :=
  s.kvIssue [dst64 f.d, src64 f.a, src32 f.b, src32 f.c] f.a (.gath trap) false f.d none (rowAt f.b)
    (fun s c l =>
      let x := s.grp c
      (s.rowFail c (bits (x.rd32 f.b l) 18 0) 4 1).or
        (s.rowFail c (bits (x.rd32 f.c l) 18 0) 8 (8 * (bits f.ofs.toNat 11 0 + 1))))
    fun x l r => { r with b := bits (x.rd32 f.b l) 18 0, c := bits (x.rd32 f.c l) 18 0, ofs := f.ofs.toNat, sem := f.sem.toNat,
                          scope := f.scope.toNat, rd := f.rd.toNat }
/-- CGATH (R385). -/
def execCgath (f : FM) (s : State) : Host.Outcome State Fault Refusal := s.cgathIssue f false
/-- CGATH.TRAP (R385, R388). -/
def execCgathTrap (f : FM) (s : State) : Host.Outcome State Fault Refusal := s.cgathIssue f true

/-! ### CPROJ (R371, R386) -/

/-- The 16 rows of d BF16 patterns in their bytes. -/
def projRows (d v : Nat) : List (List Nat) := (List.range 16).map fun j => (List.range d).map fun i => elemAt 16 v (j * d + i)

/-- A projection set of the cluster of a core loaded (R371); a pager-corner core has no cluster to load. -/
def State.setProj (s : State) (core n : Nat) (p : Proj) : State :=
  match clusterOf core with
  | some cl => s.onCluster cl fun k => { k with proj := k.proj.put n p }
  | none => s

/-- The rows of a CPROJ read, all 16 or none, and its set loaded (R386). It parks at the address that fails, as a load does; an uncorrectable
word parks it for its lane (R412). -/
def State.loadProj (s : State) (a : Access) : State :=
  let a := s.withClocks a
  match a.kind with
  | .proj n d pid =>
    match s.agentGetSure (s.agentFor a.core a.gid a.lane a.slot a.mode) a.c a.data a.size with
    | .error (.xlate f va) => s.parkAll a.core a.gid a.seqno [({ a with va := va }, f)]
    | .error (.uncorr pa) => s.parkBad { a with pa := pa } 1
    | .error _ => s
    | .ok o =>
      ((o.s.setProj a.core n ⟨pid, d, projRows d o.value⟩).dropAccess a.id).onLane a.core a.gid a.lane fun k =>
        { k with c := stampMax k.c o.c, p := o.w.elim k.p (stampMax k.p) }
  | _ => s

/-- Whether an access is carried out as a whole when it translates: CPROJ's rows (R386), or a commit (R333). -/
def Access.isWhole (a : Access) : Bool := match a.kind with | .proj _ _ _ => true | .commit _ _ _ => true | _ => false

/-- TLB_WALK_COMPLETE (R273, R275). -/
def execTlbWalkComplete (s : State) : Host.Outcome State Fault Refusal :=
  let (core, gid, seqno) := (s.turn.unit, s.turn.item, s.turn.sub)
  let t := s.walksEnd core gid seqno (fun a => s.mayTranslate a && !a.isWhole) s.copyData
  let ps := t.accesses.filter fun a =>
    a.core == core && a.gid == gid && a.seqno == seqno && a.stage == .issued && a.isWhole && t.mayTranslate a
  happened (ps.foldl (fun t a => match a.kind with | .commit _ _ _ => t.recommit a | _ => t.loadProj a) t)

/-- CPROJ (R386): one read of all 16 rows for the lowest active lane. -/
def execCproj (f : F3) (s : State) : Host.Outcome State Fault Refusal :=
  s.issueWith [] [src64 f.a, src32 f.b, src32 f.c] notUser fun s c =>
    let x := s.grp c
    let (tx, ls) := c.act.partition x.inTx
    match ls with
    | [] => .done ((s.advance c).abortCopies c tx)
    | l :: _ =>
      let a := x.rd64 f.a l % 2 ^ 53
      let d := bits (x.rd32 f.b l) 8 0
      if d < 8 ∨ 256 < d ∨ d % 8 ≠ 0 then .done ((s.abortCopies c tx).enterTraps c.core c.gid (fun _ => ⟨6, 0, c.pc, 0, 0, none⟩) ls)
      else if a % 4 ≠ 0 then .done ((s.abortCopies c tx).enterTraps c.core c.gid (fun _ => ⟨13, 1, c.pc, a, 0, none⟩) ls)
      else
        let fm : FM := ⟨0, 0, 0, 0, 0, .none, .none, .none, .none, 0⟩
        let r : Access :=
          { s.newAccess c l fm (.proj f.md.toNat d (x.rd32 f.c l)) a (32 * d) .none 0 with data := a, mask := 0 }
        if s.ownWaits c l a (32 * d) || s.logBlocks r then .stall
        else
          let t := if ls.any fun l => (x.lane l).tx.active then (s.advance c).notIdem c else s.advance c
          .done (((t.addAccess r).loadProj { r with id := s.nextId }).abortCopies c tx)

/-! ### CRED (R378, R387) -/

/-- The rows and width of a control word (R378). -/
def credShape (ctl : Nat) : Nat × Nat := (bits ctl 18 13 + 1, bits ctl 27 19 + 1)
/-- The bytes of a partial. -/
def credBytes (ctl : Nat) : Nat := (credShape ctl).1 * 4 * ((credShape ctl).2 + 2)

/-- The trap of a range that is misaligned or outside a partition. -/
def credRange (k : Core) (slot a n : Nat) : Option (Nat × Nat) :=
  if a % 4 ≠ 0 then some (causeAlign, a) else if k.partSize slot < a + n then some (causeRange, a) else none

/-- CRED (R387): an arrival, as KBAR's. -/
def State.cred (s : State) (f : F3) (norm : Bool) : Host.Outcome State Fault Refusal :=
  s.issue [src32 f.d, src32 f.a, src32 f.b, src32 f.c] fun s c =>
    let x := s.grp c
    let (tx, ls) := c.act.partition x.inTx
    match ls with
    | [] => .done ((s.advance c).abortCopies c tx)
    | l :: _ =>
      let ctl := x.rd32 f.b l
      let n := credBytes ctl
      let a := x.rd32 f.a l
      let d := x.rd32 f.d l
      let trap (kind cause at_ : Nat) : Issued :=
        .done ((s.abortCopies c tx).enterTraps c.core c.gid (fun _ => ⟨kind, cause, c.pc, at_, 0, none⟩) ls)
      if bits ctl 31 28 ≠ 0 ∨ s.kbarn c.core x ≤ ctl % 16 then trap 6 0 0
      else
        let far := match s.roleOf c.core x (bits ctl 7 4) with
          | none => some (causeRange, d)
          | some (k, slot) => credRange (s.core k) slot d n
        match (credRange (s.core c.core) c.slot a n).or far with
        | some (cause, at_) => trap 10 cause at_
        | none =>
          if !s.mayRelease c.core c.gid 1 ls then .stall
          else
            let key := kbarKey x.opid (ctl % 16)
            let phase := match clusterOf c.core with
              | some cl => (((s.cluster cl).kbar.find? key).getD Barrier.reset).phase
              | none => 0
            let w : Wait := .cred key (bits ctl 12 8) phase ctl d a (fp32.convert .rne (x.rdF fp32 f.c l)).1 norm
            let t := ((s.advance c).retry c ls).onGrp c fun x => x.onLanes ls fun _ k => { k with wait := w }
            .done (t.abortCopies c tx)

/-- CRED (R387). -/
def execCred (f : F3) (s : State) : Host.Outcome State Fault Refusal := s.cred f false
/-- CRED.NORM (R387). -/
def execCredNorm (f : F3) (s : State) : Host.Outcome State Fault Refusal := s.cred f true

/-- The exact quotient of two values rounded once (R34, R378, R394): 0/0 and ∞/∞ give NaN with NV, a nonzero over zero ∞ with DZ. -/
def Fmt.quotient (f : Fmt) (x y : Num) : Nat × Flags :=
  let inf (neg : Bool) : Nat := f.infCode.getD f.maxCode + neg.toNat * 2 ^ f.sign
  match x, y with
  | .nan, _ => (f.canon, .invalid)
  | _, .nan => (f.canon, .invalid)
  | .inf _, .inf _ => (f.canon, .invalid)
  | .inf a, .fin b _ _ => (inf (a != b), .none)
  | .fin a _ _, .inf b => ((a != b).toNat * 2 ^ f.sign, .none)
  | .fin a m e, .fin b n k =>
    if n = 0 then (if m = 0 then (f.canon, .invalid) else (inf (a != b), .divZero))
    else
      let p := 80 + (n.log2 - m.log2)
      f.roundMag .rne (a != b) (m * 2 ^ p / n) (e - k - p) (decide (m * 2 ^ p % n ≠ 0))

/-- One row of a merge (R378): m and s, then the o's, as FP32 codes. -/
structure CredRow where
  m : Nat
  s : Nat
  o : List Nat
deriving DecidableEq, Repr

/-- A rounded a·x + b·y in FP32. -/
def mulAdd2 (a x b y : Nat) : Nat × Flags :=
  fp32.convert .rne (sumNum .rne [(fp32.value a).mul (fp32.value x), (fp32.value b).mul (fp32.value y)])

/-- Two partials of a row merged (R378). -/
def CredRow.merge (c : Nat) (x y : CredRow) : CredRow × Flags :=
  let mx := fp32.value x.m
  let my := fp32.value y.m
  let (m2, f0) := if mx = .nan ∨ my = .nan then (fp32.canon, Flags.invalid) else (fp32.convert .rne (mx.maxNum my))
  let v := fp32.value m2
  let (a, f1) := fexpm fp32 mx v (fp32.value c)
  let (b, f2) := fexpm fp32 my v (fp32.value c)
  let (s, f3) := mulAdd2 a x.s b y.s
  let os := x.o.zipWith (fun p q => mulAdd2 a p b q) y.o
  (⟨m2, s, os.map fun q => q.1⟩, os.foldl (fun f q => f.or q.2) (f0.or (f1.or (f2.or f3))))

/-- A row divided by its sum (R378, .NORM). -/
def CredRow.norm (r : CredRow) : CredRow × Flags :=
  let qs := r.o.map fun p => if (fp32.value r.s).isZero then (0, Flags.none) else fp32.quotient (fp32.value p) (fp32.value r.s)
  ({ r with o := qs.map fun q => q.1 }, qs.foldl (fun f q => f.or q.2) .none)

/-- The rows of a partial. -/
def credRows (ctl v : Nat) : List CredRow :=
  let (r, n) := credShape ctl
  (List.range r).map fun i =>
    let at_ (j : Nat) : Nat := elemAt 32 v (i * (n + 2) + j)
    ⟨at_ 0, at_ 1, (List.range n).map fun j => at_ (j + 2)⟩

/-- The bytes of rows in the layout of a partial. -/
def credImage (rows : List CredRow) : Nat := packElems 32 (rows.flatMap fun r => r.m :: r.s :: r.o)

/-- Partials in ascending role merged (R378). -/
def credMerge (c : Nat) (norm : Bool) : List (List CredRow) → List CredRow × Flags
  | [] => ([], .none)
  | p :: ps =>
    let (rows, f) := ps.foldl (fun (acc : List CredRow × Flags) q =>
      let rs := acc.1.zipWith (CredRow.merge c) q
      (rs.map fun r => r.1, rs.foldl (fun f r => f.or r.2) acc.2)) (p, .none)
    if norm then
      let rs := rows.map CredRow.norm
      (rs.map fun r => r.1, rs.foldl (fun f r => f.or r.2) f)
    else (rows, f)

/-- Arrivals by ascending role. -/
def insertRole (a : CredArrival) : List CredArrival → List CredArrival
  | [] => [a]
  | b :: r => if a.role ≤ b.role then a :: b :: r else b :: insertRole a r

/-- A group changed if it is still the one that has a uid. -/
def State.onUid (s : State) (core gid uid : Nat) (f : Group → Group) : State :=
  s.onGroup core gid fun x => if x.uid = uid then f x else x

/-- A lane held for a later phase of a merge waits in the phase that begins (R378). -/
def Lane.nextCred (key phase : Nat) (k : Lane) : Lane :=
  match k.wait with
  | .cred i n _ ctl d a c norm => if i = key then { k with wait := .cred i n phase ctl d a c norm } else k
  | _ => k

/-- CRED_MERGE (R378): the count is reached; the result is written, the phase completes, and held arrivals come in order. -/
def execCredMerge (s : State) : Host.Outcome State Fault Refusal :=
  let cl := s.turn.unit
  let key := s.turn.item
  let b := ((s.cluster cl).kbar.find? key).getD Barrier.reset
  let u := ((s.cluster cl).creds.find? key).getD CredUnit.empty
  match u.now with
  | [] => .next s
  | first :: _ =>
    if b.arrived.length ≠ b.expected then .next s
    else
      let order := u.now.foldl (fun l a => insertRole a l) []
      let part (a : CredArrival) : List CredRow :=
        let k := s.core a.core
        credRows first.ctl (k.spadRead (k.partBase a.slot + a.addr) (credBytes first.ctl))
      let (rows, fl) := credMerge first.c first.norm (order.map part)
      let t := match s.roleOf first.core (s.group first.core first.gid) (bits first.ctl 7 4) with
        | some (k, slot) => s.onCore k fun q => q.spadWrite (q.partBase slot + first.dest) (credBytes first.ctl) (credImage rows)
        | none => s
      let t := u.now.foldl (fun t a => t.onUid a.core a.gid a.uid fun x => x.mergeFlags fl) t
      let t := u.held.foldl (fun t a => t.onUid a.core a.gid a.uid fun x =>
        x.onLanes x.live fun _ k => k.nextCred key (b.phase + 1)) t
      happened (t.onCluster cl fun k =>
        let k := { k with kbar := k.kbar.put key ⟨[], 0, b.phase + 1, 0, b.clock⟩, creds := k.creds.put key CredUnit.empty }
        u.held.foldl (fun k a => k.credArrive key a) k)

end Sys2Proof.Machine
end

