-- ==== Sys2Proof/Machine/Serve.lean ====
section
/-!
DEFINITION. Decode services (spec/16): penalties and counts, the generator, the stop scanner, and the placement of sequences.
-/
namespace Sys2Proof.Machine

/-! ### Lanes of a decode service (R389, R390) -/

/-- Why a lane of a decode service has no effect now: a trap, or a page that cannot be translated. -/
inductive LaneFail
  | trap (t : TrapInfo)
  | park (f : XFail) (va : Nat)
  /-- Uncorrectable data in a sector (R444). -/
  | uncorr (pa : Nat)
  /-- A unit is busy: the instruction stalls. -/
  | busy
deriving DecidableEq, Repr

/-- The failure of an engine access as a lane's. -/
def AgentFail.lane : AgentFail → LaneFail
  | .xlate f va => .park f va
  | .addr => .busy
  | .busy => .busy
  | .uncorr pa => .uncorr pa

/-- The decode trap (R390, R409): 1 VOCAB, 2 PARAM, 3 SLOT. -/
def decodeTrap (c : Ctx) (cause : Nat) : TrapInfo := ⟨17, cause, c.pc, 0, 0, none⟩

/-- Lanes act in ascending order; those that fail change nothing. -/
def State.serveFold (f : State → Nat → Except LaneFail State) (s : State) : List Nat → State × List (Nat × LaneFail)
  | [] => (s, [])
  | l :: ls =>
    match f s l with
    | .error e => let r := s.serveFold f ls; (r.1, (l, e) :: r.2)
    | .ok t => t.serveFold f ls

/-- Whether a lane issues an instruction again of which a lower lane gives an S register its value (R62, R389). -/
def Lane.follows (k : Lane) : Bool := k.again.any fun a => a.dest == .none

/-- The destination of a decode service as one lane writes it (R62): an S register takes the value of the lowest active lane, which may come
when that lane issues again (R389). -/
def Group.servedDest (x : Group) (c : Ctx) (d : Operand) (l : Nat) : Operand :=
  match d with
  | .s _ => if (c.act.find? fun i => !(x.lane i).follows) = some l then d else .none
  | _ => d

/-- Lanes whose pages cannot be translated park, one record a page, and issue again when the pager has answered (R389); `owes` is what each
owes till then. -/
def State.parkLanes (s : State) (c : Ctx) (kind set : Nat) (owes : Nat → Again) (fs : List (Nat × XFail × Nat)) : State :=
  let fm : FM := ⟨0, 0, 0, 0, 0, .none, .none, .none, .none, 0⟩
  let (s, as) := fs.foldl (fun (r : State × List (Access × XFail)) e =>
    let a := { r.1.newAccess c e.1 fm (.again kind) e.2.2 1 .none 0 with set := set, mask := 0 }
    let t := (r.1.addAccess a).onLane c.core c.gid e.1 fun k => { k with wait := .reply r.1.nextId, pc := c.pc, again := some (owes e.1) }
    (t, r.2 ++ [(a, e.2.1)])) (s, [])
  if as.isEmpty then s else s.parkAll c.core c.gid (s.grp c).seqno as

/-- Lanes that met uncorrectable data take UNCORR at the instruction; TINFO names them all (R422). -/
def State.badLanes (s : State) (c : Ctx) (bs : List (Nat × Nat)) : State :=
  bs.foldl (fun s b => s.uncorrAgain c.core c.gid b.1 c.pc b.2 (maskOf (bs.map fun e => e.1))) s

/-- The common frame of R389: transactional lanes abort with ATOM; the other active lanes act in ascending order, on the operands of the
group as it issues, each with its destination `d` of so many registers; failing ones trap alone, park with a record of KIND `kind`, or take
UNCORR. -/
def State.serve (s : State) (d : Again) (uses : List Use) (allowed : Ctx → Group → Bool) (kind : Nat)
    (f : Ctx → Group → (Nat → Operand) → State → Nat → Except LaneFail State) : Host.Outcome State Fault Refusal :=
  s.issueWith [] uses allowed fun s c =>
    let x := s.grp c
    let (tx, ls) := c.act.partition x.inTx
    let dest := x.servedDest c d.dest
    let (t, fails) := (s.advance c).serveFold (f c x dest) ls
    let parks := fails.filterMap fun e => match e.2 with | .park g va => some (e.1, g, va) | _ => none
    if fails.any (fun e => e.2 == .busy) || (!parks.isEmpty && (s.logFor c.core c.gid x.seqno).isNone) then .stall
    else
      let traps := fails.filterMap fun e => match e.2 with | .trap i => some (e.1, i) | _ => none
      let bads := fails.filterMap fun e => match e.2 with | .uncorr pa => some (e.1, pa) | _ => none
      let t := (if ls.isEmpty then t else t.notIdem c).badLanes c bads
      let t := (t.parkLanes c kind (maskOf c.set) (fun l => { d with dest := dest l }) parks).retry c (traps.map fun e => e.1)
      .done ((t.trapLanes c traps).abortCopies c tx)

/-- Every mode. -/
def anyMode (_ : Ctx) (_ : Group) : Bool := true

/-- A lane's relaxed read of n bytes, after its earlier accesses to them (R300): the state with its clocks, and the value. -/
def State.laneGet (s : State) (c : Ctx) (l va n : Nat) : Except LaneFail (State × Nat) :=
  if s.ownWaits c l va n then .error .busy
  else match s.agentGetSure (s.agentFor c.core c.gid l c.slot c.mode) ((s.grp c).lane l).c va n with
  | .error e => .error e.lane
  | .ok o => .ok (o.s.onLane c.core c.gid l fun k => { k with c := stampMax k.c o.c, p := o.w.elim k.p (stampMax k.p) }, o.value)

/-! ### Penalties and counts (R396 to R398) -/

/-- A penalty block (R396). -/
structure PenBlock where
  counts : Nat
  bias : Nat
  vocab : Nat
  rep : Nat
  pres : Nat
  freq : Nat
deriving DecidableEq, Repr

/-- The block that 32 bytes hold. -/
def PenBlock.ofWord (v : Nat) : PenBlock :=
  ⟨descField v 0 8, descField v 8 8, descField v 16 4, descField v 20 4, descField v 24 4, descField v 28 4⟩

/-- A lane's penalty block and token, checked (R390, R396): PARAM, then VOCAB. -/
def State.penBlock (s : State) (c : Ctx) (l pen t : Nat) : Except LaneFail (State × PenBlock) :=
  if pen % 8 ≠ 0 then .error (.trap (decodeTrap c 2))
  else match s.laneGet c l pen 32 with
    | .error e => .error e
    | .ok (s, v) =>
      let b := PenBlock.ofWord v
      if b.vocab = 0 ∨ 16777216 < b.vocab then .error (.trap (decodeTrap c 2))
      else if b.vocab ≤ t then .error (.trap (decodeTrap c 1))
      else .ok (s, b)

/-- A rounded step on a value. -/
def fstep (r : Num × Flags) (f : Num → Nat × Flags) : Num × Flags :=
  let q := f r.1
  (fp32.value q.1, r.2.or q.2)

/-- A rounded difference or sum in FP32. -/
def faddTo (a : Num) (x : Num) : Nat × Flags := fp32.convert .rne (sumNum .rne [x, a])

/-- PENAL's value (R397): the logit, the count of the token, the block, and its bias where it has one. -/
def penalise (ftz : Bool) (d n : Nat) (b : PenBlock) (bias : Option Nat) : Nat × Flags :=
  let rep := fp32.value b.rep
  let r : Num × Flags := (flushIn ftz (fp32.value d), .none)
  let r := if n = 0 then r
    else
      let r := fstep r fun x => if x.positive then fp32.quotient x rep else fp32.convert .rne (x.mul rep)
      fstep r (faddTo (fp32.value b.pres).neg)
  let t := fp32.convert .rne ((Num.fin false n 0).mul (fp32.value b.freq))
  let r := fstep (r.1, r.2.or t.2) (faddTo (fp32.value t.1).neg)
  let r := match bias with | some w => fstep r (faddTo (fp32.value w)) | none => r
  flushOut ftz fp32 ((fp32.convert .rne r.1).1, r.2)

/-- One lane of PENAL. -/
def State.penalLane (s : State) (f : F3) (c : Ctx) (x : Group) (dest : Operand) (l : Nat) : Except LaneFail State := do
  let t := x.rd32 f.a l
  let (s, b) ← s.penBlock c l (x.rd64 f.b l % 2 ^ 53) t
  let (s, n) ← s.laneGet c l (b.counts + 4 * t) 4
  let (s, bias) ← if b.bias = 0 then pure (s, none) else do
    let (s, v) ← s.laneGet c l (b.bias + 4 * t) 4
    pure (s, some v)
  let r := penalise x.ftz (x.rd32 f.d l) n b bias
  return s.onGrp c fun y => (y.put32 dest l r.1).mergeFlags r.2

/-- PENAL (R397). -/
def execPenal (f : F3) (s : State) : Host.Outcome State Fault Refusal :=
  s.serve ⟨f.d, 1, true⟩ [dst32 f.d, src32 f.a, src64 f.b] anyMode 0 fun c x dest s l => s.penalLane f c x (dest l) l

/-- CNTUPD's word of a lane: the address in COUNTS of its token (R398). -/
def State.cntWord (s : State) (f : F3) (c : Ctx) (x : Group) (l : Nat) : Except LaneFail (State × Nat) := do
  let t := x.rd32 f.a l
  let (s, b) ← s.penBlock c l (x.rd64 f.b l % 2 ^ 53) t
  return (s, (b.counts + 4 * t) % 2 ^ 53)

/-- The ATOM that CNTUPD is (R398): INCB, relaxed, at domain scope. -/
def cntForm (f : F3) : FM := ⟨9, 2, 0, 1, 3, f.d, .none, .none, .none, 0⟩

/-- One lane of CNTUPD: a request of its own, for which the set stalls (R389, R398); it keeps the limits of ATOM (R319). Where some lane's
word is misaligned every lane traps (R322). -/
def State.cntLane (s : State) (f : F3) (c : Ctx) (x : Group) (crooked : Bool) (dest : Operand) (l : Nat) : Except LaneFail State := do
  let (s, va) ← s.cntWord f c x l
  let replies := (s.ofLane c l).filter fun a => match a.kind with | .atomic _ => true | .pacq => true | .ptry => true | _ => false
  let a := { s.newAccess c l (cntForm f) (.atomic 9) va 4 .none 1 with
    data := 2 ^ 32 - 1, set := maskOf c.set, pc := c.pc, dest := dest }
  if crooked then .error (.trap ⟨14, 1, c.pc, va, 0, none⟩)
  else if s.portalFails c (.atomic 9) va 4 then .error (.trap ⟨14, 2, c.pc, va, 0, none⟩)
  else if decide (4 ≤ replies.length) || s.unitsFull (s.requestAt c va).toList || s.logBlocks a then .error .busy
  else return (s.addAccess a).onLane c.core c.gid l fun k => { k with wait := .reply s.nextId, pc := c.pc }

/-- CNTUPD (R398). -/
def execCntupd (f : F3) (s : State) : Host.Outcome State Fault Refusal :=
  s.serve ⟨f.d, 1, false⟩ [dst32 f.d, src32 f.a, src64 f.b] anyMode 2 fun c x dest s l =>
    let crooked := (c.act.filter fun l => !x.inTx l).any fun m =>
      match s.cntWord f c x m with | .ok (_, va) => va % 4 != 0 | .error _ => false
    s.cntLane f c x crooked (dest l) l

/-! ### The generator (R399) -/

/-- One round of Philox-4×32 on a counter. -/
def philoxRound (k0 k1 c0 c1 c2 c3 : Nat) : Nat × Nat × Nat × Nat :=
  let a := 0xD2511F53 * c0
  let b := 0xCD9E8D57 * c2
  ((b / 2 ^ 32) ^^^ c1 ^^^ k0, b % 2 ^ 32, (a / 2 ^ 32) ^^^ c3 ^^^ k1, a % 2 ^ 32)

/-- Rounds of Philox, the key bumped between them. -/
def philox : Nat → Nat → Nat → Nat × Nat × Nat × Nat → Nat × Nat × Nat × Nat
  | 0, _, _, c => c
  | n + 1, k0, k1, (c0, c1, c2, c3) =>
    philox n ((k0 + 0x9E3779B9) % 2 ^ 32) ((k1 + 0xBB67AE85) % 2 ^ 32) (philoxRound k0 k1 c0 c1 c2 c3)

/-- RAND's four words for a lane (R399). -/
def Group.randWords (x : Group) (f : F3) (l : Nat) : List Nat :=
  let a := x.rd64 f.a l
  let b := x.rd64 f.b l
  let c := x.rd64 f.c l
  let (w0, w1, w2, w3) := philox 10 (a % 2 ^ 32) (a / 2 ^ 32) (b % 2 ^ 32, b / 2 ^ 32, c % 2 ^ 32, c / 2 ^ 32)
  [w0, w1, w2, w3]

/-- RAND in either form. -/
def State.rand (s : State) (f : F3) (out : Nat → Nat) : Host.Outcome State Fault Refusal :=
  s.issueGroup [{ dstRun f.d 4 false with noneOk := false }, src64 f.a, src64 f.b, src64 f.c] fun c x =>
    c.act.foldl (fun y l => y.putRegs f.d l (packElems 32 ((x.randWords f l).map out)) 4) x

/-- RAND (R399). -/
def execRand (f : F3) (s : State) : Host.Outcome State Fault Refusal := s.rand f id
/-- RAND.U01 (R399): (c >> 8) · 2^−24, exact in FP32. -/
def execRandU01 (f : F3) (s : State) : Host.Outcome State Fault Refusal :=
  s.rand f fun w => (fp32.convert .rne (.fin false (w / 256) (-24))).1

/-! ### The stop scanner (R403 to R406) -/

/-- SCANCFG.EN. -/
def Die.scanOn (d : Die) : Bool := bit d.scancfg.toNat 0

/-- A batching-table slot admitted, or FREE. -/
def Die.seq? (d : Die) (n : Nat) : Option Seq := d.seqs.find? n

/-- A lane's request to the scanner (R390, R403): the slot that A names must be in use. `make` checks and reads the rest. -/
def State.scanIssue (s : State) (uses : List Use) (a d : Operand) (make : State → Ctx → Nat → Except TrapInfo ScanKind) :
    Host.Outcome State Fault Refusal :=
  s.issue uses fun s c =>
    let x := s.grp c
    let die := dieOf c.core
    let (tx, ls) := c.act.partition x.inTx
    let one (l : Nat) : Except TrapInfo ScanKind :=
      let n := x.rd32 a l
      if 2 ^ 16 ≤ n ∨ ((s.die die).seq? n).isNone then .error (decodeTrap c 3) else make s c l
    let fails := ls.filterMap fun l => match one l with | .error t => some (l, t) | .ok _ => none
    let go := ls.filterMap fun l => match one l with | .error _ => none | .ok k => some (l, k)
    if !go.isEmpty && (!(s.die die).scanOn || decide (1024 < (s.die die).scanq.length + go.length)) then .stall
    else
      let batch := s.nextId
      let reqs := mapIdxFrom (fun i (e : Nat × ScanKind) =>
        (⟨batch + 1 + i, batch, c.core, c.gid, e.1, x.rd32 a e.1, e.2, c.destOf d e.1⟩ : ScanReq)) 0 go
      let t := (if ls.isEmpty then s else s.notIdem c).advance c
      let t := (if go.isEmpty then t else
        { t with nextId := batch + 1 + go.length }.onDie die fun d => { d with scanq := d.scanq ++ reqs })
      let t := if go.isEmpty then t else
        t.onGrp c fun y => y.onLanes (c.set.filter fun l => !tx.contains l && !fails.any fun e => e.1 == l) fun _ k =>
          { k with wait := .reply batch, pc := c.pc }
      .done (((t.retry c (fails.map fun e => e.1)).trapLanes c fails).abortCopies c tx)

/-- SCANB (R405): the bytes are read at issue. -/
def execScanb (f : F3) (s : State) : Host.Outcome State Fault Refusal :=
  s.scanIssue [dst32 f.d, src32 f.a, src32 f.b, src32 f.c] f.a f.d fun s c l =>
    let x := s.grp c
    let k := s.core c.core
    let n := x.rd32 f.c l
    let p := x.rd32 f.b l
    if 64 < n then .error (decodeTrap c 3)
    else match (if n = 0 then none else k.spadFail c.slot p n) with
      | some e => .error ⟨10, e, c.pc, p, 0, none⟩
      | none => .ok (.feed ((List.range n).map fun i => k.spadRead (k.partBase c.slot + p + i) 1))
/-- SCANB.FLUSH (R405). -/
def execScanbFlush (f : F3) (s : State) : Host.Outcome State Fault Refusal :=
  s.scanIssue [dst32 f.d, src32 f.a] f.a f.d fun _ _ _ => .ok .flush
/-- SCANB.RESET (R405). -/
def execScanbReset (f : F3) (s : State) : Host.Outcome State Fault Refusal :=
  s.scanIssue [dst32 f.d, src32 f.a, src32 f.c] f.a f.d fun s c l => .ok (.reset ((s.grp c).rd32 f.c l % 2 ^ 16))
/-- SCANR (R406). -/
def execScanr (f : F3) (s : State) : Host.Outcome State Fault Refusal :=
  s.scanIssue [dst32 f.d, src32 f.a, src32 f.b, src32 f.c] f.a f.d fun s c l =>
    let x := s.grp c
    let k := s.core c.core
    let n := min (x.rd32 f.c l) 512
    let p := x.rd32 f.b l
    match (if n = 0 then none else k.spadFail c.slot p n) with
    | some e => .error ⟨10, e, c.pc, p, 0, none⟩
    | none => .ok (.read n (k.partBase c.slot + p))

/-- A stop automaton's descriptor (R404): TRANS, INFO, NSTATE; none where it breaks the rule. -/
def State.automaton (s : State) (base a : Nat) : Option (Nat × Nat × Nat) :=
  let v := s.unitRead (base + 0x4000000 + 32 * a) 32
  let t := descField v 0 8
  let i := descField v 8 8
  let n := descField v 16 4
  if t % 1024 = 0 ∧ i % 4 = 0 ∧ 1 ≤ n ∧ n ≤ 16777216 ∧ descField v 20 12 = 0 then some (t, i, n) else none

/-- T(q, y) with the information word of the state reached: (state, DEPTH, MLEN, MATCH); none where it breaks R404. -/
def State.transition (s : State) (base a q y : Nat) : Option (Nat × Nat × Nat × Nat) :=
  match s.automaton base a with
  | none => none
  | some (t, i, n) =>
    let w := s.unitRead (t + 1024 * q + 4 * y) 4
    let r := w % 2 ^ 24
    let info := s.unitRead (i + 4 * r) 4
    if bits w 31 24 ≠ 0 ∨ n ≤ r ∨ bit info 31 ∨ (bits info 30 16 ≠ 0 ∧ bits info 7 0 < bits info 15 8) then none
    else some (r, bits info 7 0, bits info 15 8, bits info 30 16)

/-- A slot's scanner at work (R403, R405): its automaton and state, held bytes, ring, event, and whether a match has been found. -/
structure Scan where
  auto : Nat
  q : Nat
  held : List Nat
  ring : List Nat
  event : Nat
  matched : Bool
deriving DecidableEq, Repr

/-- The bytes of a list, n of them in little-endian order. -/
def bytesOf (v n : Nat) : List Nat := (List.range n).map fun i => v / 256 ^ i % 256

/-- A scanner's 1,024 bytes in memory, all but its automaton, in the model's own layout (log 19): state, event, whether matched, and the two
lengths; the held bytes at 16, the ring at 272. -/
def Scan.image (x : Scan) : Nat :=
  x.q % 2 ^ 32 + x.event % 2 ^ 15 * 2 ^ 32 + x.matched.toNat * 2 ^ 47 + x.held.length % 2 ^ 16 * 2 ^ 48 + x.ring.length % 2 ^ 16 * 2 ^ 64 +
  packElems 8 x.held * 256 ^ 16 + packElems 8 x.ring * 256 ^ 272

/-- The scanner that 1,024 bytes hold. -/
def Scan.ofImage (auto v : Nat) : Scan :=
  ⟨auto, bits v 31 0, bytesOf (v / 256 ^ 16) (min 255 (bits v 63 48)), bytesOf (v / 256 ^ 272) (min 512 (bits v 79 64)), bits v 46 32, bit v 47⟩

/-- Where a slot's scanner state lies (R403). -/
def Die.scanAt (d : Die) (n : Nat) : Nat := bits d.scancfg.toNat 51 27 * 2 ^ 27 + 1024 * n

/-- A slot's scanner state read from memory. -/
def State.scanner (s : State) (die n auto : Nat) : Scan := .ofImage auto (s.unitRead ((s.die die).scanAt n) 1024)

/-- A slot's scanner state written to memory, if the scanner is enabled; before that software zeroes it (R403). -/
def State.putScanner (s : State) (die n : Nat) (x : Scan) : State :=
  if (s.die die).scanOn then s.unitWrite ((s.die die).scanAt n) 1024 x.image else s

/-- One byte fed to a slot (R405): the slot, whether the automaton was found bad (log 34), and whether a match ended the feed. -/
def State.feedByte (s : State) (base : Nat) (q : Scan) (y : Nat) : Scan × Bool × Bool :=
  if q.auto = 0xFFFF then ({ q with ring := q.ring ++ [y] }, false, false)
  else match s.transition base q.auto q.q y with
    | none => ({ q with auto := 0xFFFF, ring := q.ring ++ [y] }, true, false)
    | some (r, depth, mlen, mtch) =>
      let held := q.held ++ [y]
      let out := held.length - depth
      let q := { q with q := r, ring := q.ring ++ held.take out, held := held.drop out }
      if mtch = 0 then (q, false, false)
      else
        let n := q.held.length - mlen
        ({ q with ring := q.ring ++ q.held.take n, held := [], event := mtch, matched := true }, false, true)

/-- Bytes fed one by one; the rest is discarded after a match. -/
def State.feed (s : State) (base : Nat) : List Nat → Scan → Bool → Scan × Bool
  | [], q, bad => (q, bad)
  | y :: r, q, bad =>
    let (q, b, stop) := s.feedByte base q y
    if stop then (q, bad || b) else s.feed base r q (bad || b)

/-- What a request does to its slot (R405, R406): the slot, D, and the bytes a SCANR delivers. -/
def State.scanDo (s : State) (base : Nat) (q : Scan) : ScanKind → Scan × Nat × List Nat
  | .feed bs =>
    let d (code : Nat) (q : Scan) : Nat := code * 2 ^ 30 + q.held.length
    if q.matched then (q, d 2 q, [])
    else if 512 < q.ring.length + q.held.length + bs.length then (q, d 1 q, [])
    else
      let (r, bad) := s.feed base bs q false
      (r, d (if bad then 3 else 0) r, [])
  | .flush =>
    if 512 < q.ring.length + q.held.length then (q, 2 ^ 30 + q.held.length, [])
    else ({ q with ring := q.ring ++ q.held, held := [], q := 0 }, 0, [])
  | .reset a => ({ q with held := [], ring := [], event := 0, matched := false, auto := a, q := 0 }, 0, [])
  | .read n _ =>
    let out := q.ring.take n
    let rest := q.ring.drop n
    let ev := rest.isEmpty && q.event != 0
    ({ q with ring := rest, event := if ev then 0 else q.event },
      out.length + (if ev then q.event * 2 ^ 16 + 2 ^ 31 else 0), out)

/-- SCAN_REQUEST_PERFORM (R403): the oldest request; its lane's set goes on with the last of its instruction. -/
def execScanRequestPerform (s : State) : Host.Outcome State Fault Refusal :=
  let die := s.turn.unit
  let d := s.die die
  match d.scanq with
  | [] => .next s
  | r :: rest =>
    if !d.scanOn then .next s
    else
      let base := bits d.scancfg.toNat 51 27 * 2 ^ 27
      let s := s.onDie die fun d => { d with scanq := rest }
      let s := match d.seq? r.seq with
        | none => s
        | some q =>
          let (x, v, out) := s.scanDo base (s.scanner die r.seq q.auto) r.kind
          let s := (s.onDie die fun d => { d with seqs := d.seqs.put r.seq { q with auto := x.auto } }).putScanner die r.seq x
          let s := match r.kind with
            | .read _ p => s.onCore r.core fun k => k.spadWrite p out.length (packElems 8 out)
            | _ => s
          s.onGroup r.core r.gid fun x => x.put32 r.dest r.lane v
      happened (if rest.any fun q => q.batch == r.batch then s else s.onCore r.core fun k => k.wakeReply r.gid r.batch)

/-! ### Sequence slots (R391 to R395) -/

/-- The lowest FREE slot of a die. -/
def Die.freeSeq (d : Die) : Option Nat := (List.range 65536).find? fun n => (d.seq? n).isNone

/-- Records of a die that name a slot. -/
def Die.recsOf (d : Die) (n : Nat) : List (Nat × Rec) := d.recs.filter fun r => hdrSeq r.2.hdr == n

/-- Whether an admission block keeps R392. -/
def admissionOk (v : Nat) : Bool :=
  descField v 0x10 8 % 8 == 0 && decide (descField v 0x18 1 ≤ 63) && descField v 0x19 1 == 0 &&
  (decide (descField v 0x1A 2 ≤ 4095) || descField v 0x1A 2 == 0xFFFF) && descField v 0x1C 4 == 0

/-- The slot that an admission block describes (R393). -/
def admitted (v : Nat) : Seq :=
  { st := 1, samp := descField v 0 8, pen := descField v 8 8, done := descField v 0x10 8, tenant := descField v 0x18 1, code := 0,
    auto := descField v 0x1A 2 }

/-- A sequence placed in a slot, its scanner in state 0 with empty buffers (R393). -/
def State.placeSeq (s : State) (die n : Nat) (q : Seq) (x : Scan) : State :=
  (s.onDie die fun d => { d with seqs := d.seqs.put n q }).putScanner die n x

/-- One lane of SEQADM (R393): the block is read as an acquire, then a slot sought. -/
def State.admitLane (s : State) (f : F3) (c : Ctx) (x : Group) (dest : Operand) (l : Nat) : Except LaneFail State := do
  let die := dieOf c.core
  let put (s : State) (v : Nat) : State := s.onGrp c fun y => y.put32 dest l v
  let a := x.rd64 f.a l % 2 ^ 53
  let free := (s.die die).freeSeq
  if a % 8 ≠ 0 then return put s (2 ^ 31 + if free.isSome then 2 else 1)
  if s.ownWaits c l a 32 then .error .busy
  else match s.agentGetSure { s.agentFor c.core c.gid l c.slot c.mode with orders := true } ((s.grp c).lane l).c a 32 with
    | .error e => .error e.lane
    | .ok o =>
      let s := o.s.onLane c.core c.gid l fun k =>
        let k := o.w.elim k k.acquire
        { k with c := stampMax k.c o.c, p := o.w.elim k.p (stampMax k.p) }
      match free with
      | none => return put s (2 ^ 31 + 1)
      | some n =>
        if !admissionOk o.value then return put s (2 ^ 31 + 2)
        let q := admitted o.value
        return put (s.placeSeq die n q ⟨q.auto, 0, [], [], 0, false⟩) n

/-- SEQADM (R393). -/
def execSeqadm (f : F3) (s : State) : Host.Outcome State Fault Refusal :=
  s.serve ⟨f.d, 1, false⟩ [dst32 f.d, src64 f.a] notUser 0 fun c x dest s l => s.admitLane f c x (dest l) l

/-- SEQADM.REL (R393). -/
def execSeqadmRel (f : F3) (s : State) : Host.Outcome State Fault Refusal :=
  s.serve ⟨f.d, 1, false⟩ [dst32 f.d, src32 f.a] notUser 0 fun c x dest s l =>
    let die := dieOf c.core
    let d := s.die die
    let n := x.rd32 f.a l
    let put (s : State) (v : Nat) : State := s.onGrp c fun y => y.put32 (dest l) l v
    if 2 ^ 16 ≤ n then .error (.trap (decodeTrap c 3))
    else match d.seq? n with
      | some q =>
        if q.st = 2 ∧ (d.recsOf n).isEmpty then .ok (put (s.onDie die fun d => { d with seqs := d.seqs.erase n }) 0) else .ok (put s 1)
      | none => .ok (put s 1)

/-- SEQADM.INFO's value for a slot (R393). -/
def Die.seqInfo (d : Die) (n : Nat) : Nat :=
  let r := min (d.recsOf n).length (2 ^ 24 - 1)
  match d.seq? n with
  | some q => q.code * 2 ^ 48 + q.st * 2 ^ 30 + q.tenant * 2 ^ 24 + r
  | none => r

/-- SEQADM.INFO (R393). -/
def execSeqadmInfo (f : F3) (s : State) : Host.Outcome State Fault Refusal :=
  s.serve ⟨f.d, 2, false⟩ [dst64 f.d, src32 f.a] notUser 0 fun c x dest s l =>
    let d := s.die (dieOf c.core)
    let a := x.rd32 f.a l
    if bits a 30 16 ≠ 0 then .error (.trap (decodeTrap c 3))
    else
      let v := if bit a 31 then 65536 - d.seqs.length else d.seqInfo (a % 2 ^ 16)
      .ok (s.onGrp c fun y => y.put64 (dest l) l v)

/-- A record leaves its Col unit's wait and the merge for another die (R395): HDR.SEQ and NEXT name its new place. -/
def State.sendAway (s : State) (src dst n : Nat) (e : Nat × Rec) : State :=
  let d := s.die src
  let waiting := d.cols.flatMap fun u => (u.2.waiting.filter fun w => w.rid == e.1).map fun w => w.tag
  let held := (d.merge.filter fun h => h.rid == e.1).flatMap fun h => h.tags
  let tags := if e.2.place = 5 then [e.2.tag] else waiting ++ held
  let s := s.onDie src fun d =>
    { d.onRec e.1 fun x => { x with hdr := setBits x.hdr 21 2 n, next := setBits (setBits x.next 21 20 dst) 31 22 s.pkg } with
      cols := d.cols.map fun u => (u.1, { u.2 with waiting := u.2.waiting.filter fun w => w.rid != e.1 }),
      merge := d.merge.filter fun h => h.rid != e.1 }
  s.sendRec src e.1 tags none

/-- seqsteal of R395 for a lane: the state and D, or a page that cannot be translated. -/
def State.steal (s : State) (c : Ctx) (l src q : Nat) : Except LaneFail (State × Nat) :=
  let dst := dieOf c.core
  match (s.die dst).freeSeq with
  | none => .ok (s, 2)
  | some n =>
    match (s.die src).seq? q with
    | none => .ok (s, 1)
    | some slot =>
      let recs := (s.die src).recsOf q
      if slot.st ≠ 1 ∨ recs.any (fun r => decide (2 ≤ r.2.place) && decide (r.2.place ≤ 4)) then .ok (s, 1)
      else
        let g := s.agentFor c.core c.gid l c.slot c.mode
        let k := (s.grp c).lane l
        match (kvMoveAll { g with die := src } g q n (List.range 4096)).run ⟨s, k.c, k.p, k.h⟩ with
        | .error e => .error e.lane
        | .ok (code, e) =>
          if code ≠ 0 then .ok (s, code)
          else
            let t := e.s.onLane c.core c.gid l fun k => { k with c := stampMax k.c e.c, p := stampMax k.p e.w }
            let scan := if (s.die src).scanOn then s.scanner src q slot.auto else ⟨slot.auto, 0, [], [], 0, false⟩
            let t := (t.onDie src fun d => { d with seqs := d.seqs.erase q }).placeSeq dst n slot scan
            let t := recs.foldl (fun t r => t.sendAway src dst n r) t
            .ok ((t.noteDie src).noteDie dst, n * 2 ^ 16)

/-- SEQSTEAL (R395). -/
def execSeqsteal (f : F3) (s : State) : Host.Outcome State Fault Refusal :=
  s.serve ⟨f.d, 1, false⟩ [dst32 f.d, src32 f.a] notUser 0 fun c x dest s l =>
    let a := x.rd32 f.a l
    if 2 ^ 18 ≤ a then .error (.trap (decodeTrap c 3))
    else match s.steal c l (a / 2 ^ 16) (a % 2 ^ 16) with
      | .error e => .error e
      | .ok (t, v) => .ok (t.onGrp c fun y => y.put32 (dest l) l v)

end Sys2Proof.Machine
end

