-- ==== Sys2Proof/Machine/Priv.lean ====
section
/-!
DEFINITION. Calls and returns, privileged registers, translation shootdown, budgets and freezing (spec/17, R413 to R420, R427 to
R430).
-/
namespace Sys2Proof.Machine

/-! ### Calls (R415) -/

/-- A call by every active lane (R415): TPC the next instruction, TVAL the call's own address, TINFO the literal. -/
def State.call (s : State) (c : Ctx) (kind : Nat) (imm : BitVec 32) : State :=
  (s.advance c).enterTraps c.core c.gid (fun _ => ⟨kind, 0, c.next, c.pc.toNat, imm.toNat, none⟩) c.act

/-- A system or hypervisor call of a lane outside transactions ends the group's idempotence (R415, R424). -/
def State.callOut (s : State) (c : Ctx) : State := if c.act.all (s.grp c).inTx then s else s.notIdem c

/-- H mode. -/
def hypOnly (c : Ctx) (_ : Group) : Bool := decide (c.mode = .h)

/-- SYSC (R415): in H mode an illegal instruction (R414). -/
def execSysc (f : FI) (s : State) : Host.Outcome State Fault Refusal :=
  s.issue [] fun s c => if c.mode = .h then .done (s.trapSet c 5) else .done ((s.callOut c).call c 0 f.imm)
/-- HCALL (R415). -/
def execHcall (f : FI) (s : State) : Host.Outcome State Fault Refusal :=
  s.issueWith [] [] notUser fun s c => .done ((s.callOut c).call c 22 f.imm)
/-- BRK (R415). -/
def execBrk (f : FI) (s : State) : Host.Outcome State Fault Refusal := s.issue [] fun s c => .done (s.call c 20 f.imm)

/-! ### Returns (R309, R413, R422) -/

/-- A parked access goes on (R309, R422): with its race check passed, or from memory again. -/
def State.unpark (s : State) (id : Nat) (passed : Bool) : State :=
  match s.access? id with
  | some a =>
    if a.stage = .parked then s.setAccess { a with stage := .issued, race := none, passed := a.passed || passed } else s
  | none => s

/-- A return of one lane (R413): its top entry's access is resolved (a request that its portal failed is given up, R326), then PC,
mode and predicate word. -/
def State.retLane (s : State) (c : Ctx) (l : Nat) : Except TrapInfo State :=
  match ((s.grp c).lane l).traps with
  | [] => .error ⟨5, 0, c.pc, 0, 0, none⟩
  | e :: _ =>
    let s := match e.access with
      | some id => if e.kind = 18 then s.unpark id true else if e.kind = 19 then s.unpark id false else s.dropAccess id
      | none => s
    .ok (s.onLane c.core c.gid l Lane.popTrap)

/-- A return (R413): lanes without an entry trap, each for itself. -/
def State.ret (s : State) (c : Ctx) : Issued :=
  let r := (s.advance c).laneFold (fun s l => s.retLane c l) c.act
  .done ((r.1.retry c (r.2.map fun e => e.1)).trapLanes c r.2)

/-- SRET (R416): in H mode an illegal instruction (R414). -/
def execSret (s : State) : Host.Outcome State Fault Refusal :=
  s.issueWith [] [] notUser fun s c => if c.mode = .h then .done (s.trapSet c 5) else s.ret c
/-- HRET (R416). -/
def execHret (s : State) : Host.Outcome State Fault Refusal := s.issueWith [] [] hypOnly fun s c => s.ret c

/-! ### Privileged registers (R417, R418) -/

/-- Whether a register belongs to a lane. -/
def prLane (n : Nat) : Bool := decide (n ≤ 11)
/-- The context slot of a per-slot register. -/
def prSlot (n : Nat) : Option Nat :=
  if (16 ≤ n ∧ n ≤ 19) ∨ (32 ≤ n ∧ n ≤ 47) then some (n % 4) else none
/-- Whether a register is 64 bits wide. -/
def prWide (n : Nat) : Bool := n != 1 && n != 4
/-- Whether a mode may read a register (R418). -/
def prReads (m : Mode) (n : Nat) : Bool :=
  match m with
  | .u => false
  | .s => n != 25 && n != 26
  | .h => true
/-- Whether a mode may write a register (R418). -/
def prWrites (m : Mode) (n : Nat) : Bool :=
  match m with
  | .u => false
  | .s => [0, 2, 3, 4, 8, 9, 10, 11, 16, 17, 18, 19, 24, 99, 101, 102].contains n || (decide (32 ≤ n) && decide (n ≤ 43))
  | .h => !([20, 64, 96, 100, 104].contains n)

/-- Whether an access to a register is allowed (R417): the mode, the lane's own slot, SLOCK. -/
def State.prAllowed (s : State) (write : Bool) (n : Nat) (c : Ctx) (_ : Group) : Bool :=
  (if write then prWrites c.mode n else prReads c.mode n) &&
  (c.mode != .s || match prSlot n with
    | some k => k == c.slot
    | none => !(write && !prLane n && bit (s.core c.core).hctl.toNat 0))

/-- A lane register (R418). -/
def Lane.pr (k : Lane) (n : Nat) : Nat :=
  let top (f : TrapEntry → Nat) : Nat := match k.traps with | [] => 0 | e :: _ => f e
  match n with
  | 0 => top fun e => e.tpc.toNat
  | 1 => top fun e => k.traps.length * 2 ^ 21 + e.pmode.toNat * 2 ^ 16 + e.cause * 2 ^ 8 + e.kind
  | 2 => top fun e => e.tval
  | 3 => top fun e => e.tinfo
  | 4 => (top fun e => e.tpred.toNat) ||| 2 ^ 15
  | _ => (sget (if k.mode = .h then k.xh else k.xs) (n - 8)).toNat

/-- A lane register written (R418); at depth 0 there is no entry to write. -/
def Lane.setPr (k : Lane) (n v : Nat) : Lane :=
  let top (f : TrapEntry → TrapEntry) : Lane := match k.traps with | [] => k | e :: r => { k with traps := f e :: r }
  match n with
  | 0 => top fun e => { e with tpc := pcOf v }
  | 1 => top fun e => { e with pmode := BitVec.ofNat 2 (bits v 17 16) }
  | 2 => top fun e => { e with tval := v % 2 ^ 64 }
  | 3 => top fun e => { e with tinfo := v % 2 ^ 64 }
  | 4 => top fun e => { e with tpred := BitVec.ofNat 16 (v ||| 2 ^ 15) }
  | _ =>
    let w : Long := BitVec.ofNat 64 v
    if k.mode = .h then { k with xh := sput k.xh (n - 8) w } else { k with xs := sput k.xs (n - 8) w }

/-- WINSTAT (R109). -/
def Core.winstat (k : Core) : Nat :=
  let used (j : Nat) : Nat := (k.groups.filter fun g => g.2.slot == j).foldl (fun n g => n + g.2.window.length) 0
  k.freeGranules.length + used 0 * 2 ^ 8 + used 1 * 2 ^ 16 + used 2 * 2 ^ 24 + used 3 * 2 ^ 32

/-- SVSTAT (R320) of a core's cluster; a pager-corner core has a fallback permit alone (R331). -/
def State.svstat (s : State) (core : Nat) : Nat :=
  let q := s.cluster (txCluster core)
  let locks := (clusterOf core).elim 0 fun cl => s.locksAt (s.pkg, some cl)
  q.fallback.isSome.toNat * 2 ^ 63 + (q.fallback.getD 0) % 2 ^ 30 * 2 ^ 32 + min locks 4095 * 2 ^ 16 + q.waiters * 2 ^ 3

/-- RECSTAT (R210). -/
def Die.recstat (d : Die) : Nat :=
  (d.recs.filter fun r => r.2.place == 5).length * 2 ^ 40 + min d.recs.length 32768 * 2 ^ 21 + d.freeRecs

/-- Memory request slots held on a die, and the most of one channel (R267). -/
def State.slotCounts (s : State) (die : Nat) : Nat × Nat :=
  let held := (List.range 128).map (s.slotsHeld die)
  (held.foldl (· + ·) 0, held.foldl max 0)

/-- A register of a slot, a core, a cluster or a die (R418). -/
def State.pr (s : State) (core n : Nat) : Nat :=
  let k := s.core core
  let d := s.die (dieOf core)
  let at_ (l : List Long) : Nat := ((l[n % 4]?).getD 0).toNat
  match n with
  | 20 => k.winstat
  | 21 => k.spmap.toNat
  | 22 => k.accown.toNat
  | 23 => k.racectl.toNat
  | 24 => k.txcfg.toNat
  | 25 => k.hdeleg.toNat
  | 26 => k.hvec.toNat
  | 27 => k.hctl.toNat
  | 28 => k.ckptcfg.toNat
  | 29 => k.ckptstop.toNat
  | 64 => s.svstat core
  | 96 => d.recstat
  | 97 => d.stallcfg.toNat
  | 98 => d.ridge.cfg.toNat
  | 99 => d.adpcfg.toNat
  | 100 => d.rqPeak * 2 ^ 32 + (s.slotCounts (dieOf core)).1
  | 101 => d.fqbase.toNat
  | 102 => d.fqptr.toNat
  | 103 => d.kvdir.toNat
  | 104 => d.kvCount * 2 ^ 16 + d.cows.length
  | 105 => d.scancfg.toNat
  | _ =>
    if 112 ≤ n then ((d.tenq[n - 112]?).getD 0).toNat
    else if n ≤ 19 then at_ k.slotcfg
    else if n ≤ 35 then at_ k.svec
    else if n ≤ 39 then at_ k.tarea
    else if n ≤ 43 then at_ k.ptroot
    else at_ k.vmroot

/-- A read of RQSTAT sets PEAK to the present highest count (R267); no other read changes anything. -/
def State.prRead (s : State) (core n : Nat) : State :=
  if n = 100 then s.onDie (dieOf core) fun d => { d with rqPeak := (s.slotCounts (dieOf core)).2 } else s

/-- Ones in bits [hi:lo]. -/
def ones (hi lo : Nat) : Nat := (2 ^ (hi + 1 - lo) - 1) * 2 ^ lo

/-- The bits of a register that a write sets (R78, R157, R164, R230, R247, R255, R272, R278, R311, R338, R355, R403, R418, R431). -/
def prMask (m : Mode) (n : Nat) : Nat :=
  match n with
  | 21 => ones 62 48 - 2 ^ 55 + (ones 46 32 - 2 ^ 39) + (ones 30 16 - 2 ^ 23) + (ones 14 0 - 2 ^ 7)
  | 22 => ones 11 0
  | 23 => ones 63 32 + ones 7 0
  | 24 => ones 3 0
  | 25 => ones 63 0
  | 26 => ones 52 11
  | 27 => 1
  | 28 => ones 51 8 + ones 2 1
  | 29 => ones 39 0
  | 97 => ones 63 12 + 1
  | 98 => ones 63 48 + ones 37 32 + ones 14 8
  | 99 => ones 52 12 + 1
  | 101 => ones 51 19 + 1
  | 102 => ones 12 0
  | 103 => ones 51 19 + 1
  | 105 => ones 51 27 + 1
  | _ =>
    if 112 ≤ n then ones 63 0
    else if n ≤ 19 then (if m = .h then ones 36 32 + ones 20 16 + ones 3 0 else ones 3 0)
    else if n ≤ 35 then ones 52 11
    else if n ≤ 39 then ones 51 18 + 1
    else if n ≤ 43 then ones 51 13 + ones 11 0
    else ones 51 0

/-- The bits of a register that a write of 1 clears. -/
def prClears (n : Nat) : Nat := if n = 28 then 2 ^ 3 else if n = 99 then 2 else 0

/-- The value a register holds after a write (R4). -/
def prNew (m : Mode) (n old v : Nat) : Nat :=
  let mask := prMask m n
  let keep := old &&& (2 ^ 64 - 1 - mask)
  (keep &&& (2 ^ 64 - 1 - (v &&& prClears n))) ||| (v &&& mask)

/-- A register set to a value. -/
def State.setPr (s : State) (core n v : Nat) : State :=
  let w : Long := BitVec.ofNat 64 v
  let put (l : List Long) : List Long := setAt l (n % 4) w
  let onD (f : Die → Die) : State := s.onDie (dieOf core) f
  let onC (f : Core → Core) : State := s.onCore core f
  match n with
  | 23 => onC fun k => { k with racectl := w }
  | 24 => onC fun k => { k with txcfg := w }
  | 25 => onC fun k => { k with hdeleg := w }
  | 26 => onC fun k => { k with hvec := w }
  | 27 => onC fun k => { k with hctl := w }
  | 28 => onC fun k => { k with ckptcfg := w, ckptPos := if bits v 2 1 = 1 then 0 else k.ckptPos }
  | 29 => onC fun k => { k with ckptstop := w }
  | 97 => onD fun d => { d with stallcfg := w }
  | 98 => onD fun d => { d with ridge := { d.ridge with cfg := w } }
  | 99 => onD fun d => { d with adpcfg := w }
  | 101 => onD fun d => { d with fqbase := w }
  | 102 => onD fun d => { d with fqptr := w }
  | 103 => onD fun d => { d with kvdir := w }
  | 105 => onD fun d => { d with scancfg := w }
  | _ =>
    if 112 ≤ n then onD fun d => { d with tenq := setAt d.tenq (n - 112) w }
    else if n ≤ 19 then onC fun k => { k.settleCredits s.clk with slotcfg := put k.slotcfg }
    else if n ≤ 35 then onC fun k => { k with svec := put k.svec }
    else if n ≤ 39 then onC fun k => { k with tarea := put k.tarea }
    else if n ≤ 43 then onC fun k => { k with ptroot := put k.ptroot }
    else onC fun k => { k with vmroot := put k.vmroot }

/-- RDPR (R417). -/
def execRdpr (f : FI) (s : State) : Host.Outcome State Fault Refusal :=
  let n := f.imm.toNat
  s.issueWith [] [dstW (prWide n) f.d] (s.prAllowed false n) fun s c =>
    if c.act.isEmpty then .done (s.advance c)
    else
      let x := s.grp c
      let v (l : Nat) : Nat := if prLane n then (x.lane l).pr n else s.pr c.core n
      .done (((s.prRead c.core n).advance c).onGrp c fun y => y.wr c f.d (prWide n) v)

/-- Whether a value of SPMAP is refused (R158). -/
def Core.spmapBad (k : Core) (v : Nat) : Bool :=
  let base (w j : Nat) : Nat := bits w (16 * j + 6) (16 * j)
  let size (w j : Nat) : Nat := bits w (16 * j + 14) (16 * j + 8)
  let old := k.spmap.toNat
  [0, 1, 2, 3].any fun j =>
    decide (96 < base v j + size v j) ||
    (decide (base v j ≠ base old j ∨ size v j < size old j) && decide (0 < k.inSlot j)) ||
    [0, 1, 2, 3].any fun i =>
      decide (i < j) && decide (0 < size v i) && decide (0 < size v j) && decide (base v i < base v j + size v j) &&
        decide (base v j < base v i + size v i)

/-- A write of SPMAP or ACCOWN (R158, R164): the set stalls until it is carried out. -/
def State.slowWrite (s : State) (c : Ctx) (n v : Nat) (pre : Group → Group) : Issued :=
  let id := s.nextId
  let w := some (BitVec.ofNat 64 v, c.gid, id)
  let k := s.core c.core
  if (if n = 21 then k.spmapNew else k.accownNew).isSome then .stall
  else
    let t := { s with nextId := id + 1 }.onCore c.core fun k => if n = 21 then { k with spmapNew := w } else { k with accownNew := w }
    .done (t.onGrp c fun x => (pre x).onLanes c.set fun _ k => { k with wait := .reply id })

/-- WRPR in either form (R417): the old value to D where there is one, then A. Whether groups are resident in a slot of SPMAP is looked at
here, at the issue, and not again when the write is carried out (log 79). -/
def State.wrpr (s : State) (f : FI) (swap : Bool) : Host.Outcome State Fault Refusal :=
  let n := f.imm.toNat
  let wide := prWide n
  s.issueWith [] (srcW wide f.a :: if swap then [dstW wide f.d] else []) (s.prAllowed true n) fun s c =>
    let x := s.grp c
    let d (old : Nat → Nat) (y : Group) : Group := if swap then y.wr c f.d wide old else y
    if c.act.isEmpty then .done (s.advance c)
    else if prLane n then
      .done ((s.advance c).onGrp c fun y => (d (fun l => (x.lane l).pr n) y).onLanes c.act fun l k => k.setPr n (x.rd f.a l wide))
    else
      let old := s.pr c.core n
      let v := prNew c.mode n old (x.rd f.a c.low wide)
      if n = 21 && (s.core c.core).spmapBad v then
        .done (s.enterTraps c.core c.gid (fun _ => ⟨6, 0, c.pc, 0, 0, none⟩) c.act)
      else if n = 21 ∨ n = 22 then s.slowWrite c n v (d fun _ => old)
      else .done (((s.setPr c.core n v).advance c).onGrp c (d fun _ => old))

/-- WRPR (R417). -/
def execWrpr (f : FI) (s : State) : Host.Outcome State Fault Refusal := s.wrpr f false
/-- WRPR.X (R417). -/
def execWrprX (f : FI) (s : State) : Host.Outcome State Fault Refusal := s.wrpr f true

/-! ### Translation shootdown (R283, R420) -/

/-- The pages of a pass (R242): its first address and its bytes. -/
def Pass.bytes (p : Pass) : Nat := p.entry.places * blockSize p.entry.fmt

/-- The addresses of the pages of a pass. -/
def Pass.pages (p : Pass) : List Nat :=
  let first := p.entry.addr / 8192
  (List.range ((p.entry.addr + p.bytes + 8191) / 8192 - first)).map fun i => (first + i) * 8192 % 2 ^ 53

/-- Whether the page at an address of a space is pinned: its leaf's PINS is above zero (R283). -/
def State.pinnedAt (s : State) (pt vm va : Nat) : Bool :=
  match s.walkBoth pt vm va with | .ok e => s.read (e.leafAt va + 7) 1 != 0 | .error _ => false

/-- The open passes of the package that read a pinned page which a target covers; the pages of a PIN pass are pinned while it is bound
(R252, R253, R283). -/
def State.passesUnder (s : State) (ts : List InvalTarget) : List (Nat × Nat) :=
  s.dies.flatMap fun d => (d.2.ridge.passes.filter fun p =>
    p.pages.any fun va => (ts.any fun t => s.removes t (bits p.pt 11 0) (bits p.vm 11 0) va) && (p.pin || s.pinnedAt p.pt p.vm va)).map fun p => (d.1, p.id)

/-- TLBINV (R420): a release at issue; the set stalls until the switch. -/
def State.tlbinv (s : State) (f : FM) (uses : List Use) (allowed : Ctx → Group → Bool) (bad : Nat → Bool)
    (target : Ctx → Group → Nat × Nat → Nat → InvalTarget) : Host.Outcome State Fault Refusal :=
  s.issueWith [] uses allowed fun s c =>
    let x := s.grp c
    let (pt, vm) := (s.core c.core).roots c.slot
    let own := (bits pt 11 0, bits vm 11 0)
    if c.act.isEmpty then .done (s.advance c)
    else if c.act.any fun l => bad (x.rd32 f.c l) then .done (s.enterTraps c.core c.gid (fun _ => ⟨6, 0, c.pc, 0, 0, none⟩) c.act)
    else if !s.mayRelease c.core c.gid f.scope.toNat c.act then .stall
    else
      let ts := c.act.map (target c x own)
      let i : Inval := ⟨s.nextId, c.core, c.gid, maskOf c.act, ts, s.passesUnder ts⟩
      .done ({ s with nextId := s.nextId + 1, invals := s.invals ++ [i] }.onGrp c fun x =>
        x.onLanes c.set fun _ k => { k with wait := .reply i.id })

/-- TLBINV.VA (R420). -/
def execTlbinvVa (f : FM) (s : State) : Host.Outcome State Fault Refusal :=
  s.tlbinv f [src64 f.a, src32 f.b] notUser (fun _ => false) fun _ x own l => ⟨0, fmAddr f x l, own.1, own.2⟩
/-- TLBINV.ASID (R420). -/
def execTlbinvAsid (f : FM) (s : State) : Host.Outcome State Fault Refusal :=
  s.tlbinv f [src32 f.c] notUser (fun w => bits w 15 12 != 0 || bits w 31 28 != 0) fun c x own l =>
    let w := x.rd32 f.c l
    ⟨1, 0, bits w 11 0, if c.mode = .h then bits w 27 16 else own.2⟩
/-- TLBINV.VMID (R420). -/
def execTlbinvVmid (f : FM) (s : State) : Host.Outcome State Fault Refusal :=
  s.tlbinv f [src32 f.c] hypOnly (fun w => bits w 15 0 != 0 || bits w 31 28 != 0) fun _ x _ l =>
    ⟨2, 0, 0, bits (x.rd32 f.c l) 27 16⟩
/-- TLBINV.ALL (R420). -/
def execTlbinvAll (f : FM) (s : State) : Host.Outcome State Fault Refusal :=
  s.tlbinv f [] notUser (fun _ => false) fun c _ own _ => ⟨if c.mode = .h then 3 else 1, 0, own.1, own.2⟩

/-- Whether an access has been translated and not performed; one queued at its owner or polling re-reads its table. -/
def Access.translated (a : Access) : Bool := (a.stage == .ready || a.stage == .granted) && !a.queued

/-- Whether a translated access cannot be performed before a switch: it waits for what other lanes do, it is held or has no operand-log
entry yet, or it keeps its order behind an access or a request of its group that must itself translate after the switch. -/
def State.afterSwitch (s : State) (a : Access) : Bool :=
  s.waitsForOthers a || s.isHeld a || a.logWait ||
  (!s.inOrder a && (
    (s.accesses.any fun b => b.core == a.core && b.gid == a.gid && (b.stage == .parked || (b.stage == .issued && s.invalHolds b))) ||
    ((s.die (dieOf a.core)).engine.any fun r => r.core == a.core && r.gid == a.gid) ||
    (s.die (dieOf a.core)).kvq.any fun r => r.core == a.core && r.gid == a.gid))

/-- Whether an access must be performed before a switch (R420): it has used the translation. -/
def State.beforeSwitch (s : State) (i : Inval) (a : Access) : Bool := a.translated && s.invalCovers i a && !s.afterSwitch a

/-- Whether a KV block engine has still to write at addresses of a covered space that it has translated (R283, R365). -/
def State.kvBeforeSwitch (s : State) (i : Inval) : Bool :=
  s.dies.any fun d => (d.2.cows.map (fun w => w.req) ++ d.2.pubs.map fun p => p.req).any fun r =>
    let (pt, vm) := (s.core r.core).roots r.slot
    i.targets.any fun t => t.covers (bits pt 11 0) (bits vm 11 0) t.va

/-- A buffer without the entries that targets cover. -/
def tlbWithout (ts : List InvalTarget) (l : List TlbEntry) : List TlbEntry :=
  l.filter fun e => !(ts.any fun t => match t.kind with
    | 0 => e.covers t.asid t.vmid t.va
    | 1 => t.asid == e.asid && t.vmid == e.vmid
    | 2 => t.vmid == e.vmid
    | _ => true)

/-- The clocks of a lane after a fence (R317). -/
def Lane.fenced (k : Lane) : Lane := let h := stampMax k.h k.p; { k with h := h, c := stampMax (stampNext k.c) h }

/-- TLBINV_SWITCH (R283, R420): the entries leave every buffer; accesses held back translate again. -/
def execTlbinvSwitch (s : State) : Host.Outcome State Fault Refusal :=
  match s.invals.find? (fun i => i.id == s.turn.unit) with
  | none => .next s
  | some i =>
    let open_ := i.passes.any fun p => (s.die p.1).ridge.passes.any fun q => q.id == p.2
    if open_ || s.accesses.any (s.beforeSwitch i) || s.kvBeforeSwitch i then .next s
    else
      let again (a : Access) : Access :=
        if a.translated && s.invalCovers i a then { a with stage := .issued } else a
      let core (k : Nat × Core) : Nat × Core := (k.1, { k.2 with tlb := tlbWithout i.targets k.2.tlb })
      let die (d : Nat × Die) : Nat × Die := (d.1, { d.2 with ltlb := tlbWithout i.targets d.2.ltlb })
      let t := { s with invals := s.invals.filter (fun j => j.id != i.id), accesses := s.accesses.map again,
                        cores := s.cores.map core, dies := s.dies.map die }
      happened (t.onGroup i.core i.gid fun x =>
        x.onLanes ((List.range 32).filter fun l => (x.lane l).wait == .reply i.id) fun l k =>
          let k := if i.lanes.testBit l then k.fenced else k
          { k with wait := .none, pc := nextPc k.pc })

/-! ### Budgets (R427, R428) -/

/-- SVCFG.BUDGET (R427): units of 64 clk. -/
def execSvcfgBudget (f : FI) (s : State) : Host.Outcome State Fault Refusal :=
  s.issueWith [] [src32 f.a] notUser fun s c =>
    let x := s.grp c
    .done ((s.advance c).onGrp c fun y => y.onLanes c.act fun l k =>
      let b := min (x.rd32 f.a l + f.imm.toNat) (2 ^ 32 - 1)
      { k with budget := if b = 0 then none else some (64 * b) })

/-- SVCFG.NOIDEM (R424, R427). -/
def execSvcfgNoidem (s : State) : Host.Outcome State Fault Refusal :=
  s.issueWith [] [] notUser fun s c => .done (if c.act.isEmpty then s.advance c else (s.advance c).notIdem c)

/-- A lane after n clk more: an armed budget counts down in U mode (R427), and a NAP ends when its time is over (R103). -/
def Lane.passTime (k : Lane) (n now : Nat) : Lane :=
  let k := match k.budget with
    | some b => if k.mode = Mode.u then { k with budget := some (b - n) } else k
    | none => k
  match k.wait with
  | .nap u => if u ≤ now then { k with wait := .none, pc := nextPc k.pc } else k
  | _ => k

/-- Whether time changes a lane. -/
def Lane.timed (k : Lane) : Bool := k.budget.isSome || match k.wait with | .nap _ => true | _ => false

/-- CLOCK moves on (R112), and with it what lanes count (R103, R427) and the boardings that fall due (R248). -/
def State.passTime (s : State) (n : Nat) : State :=
  let s := { s with clk := (s.clk + n) % 2 ^ 64 }.takeDue
  if s.cores.any fun k => k.2.groups.any fun g => g.2.lanes.any Lane.timed then
    { s with cores := s.cores.map fun k => (k.1, k.2.mapGroups fun x =>
        if x.lanes.any Lane.timed then { x with lanes := x.lanes.map fun l => l.passTime n s.clk, skip := 0 } else x) }
  else s

/-- A lane's WAITM arrival bit falls (R428). -/
def Group.unarrive (x : Group) (k l : Nat) : Group := let m := x.mask k; x.setMask k { m with arr := clearBit m.arr l }

/-- A lane leaves its wait without effect and stands at the waiting instruction (R428). A permit handed over to it is its own already, and
its reply ends the wait (R329). -/
def State.leaveWait (s : State) (core gid l : Nat) : State :=
  let out (s : State) : State := s.onLane core gid l fun k => { k with wait := .none }
  match ((s.group core gid).lane l).wait with
  | .waitm k => out (s.onGroup core gid fun x => x.unarrive k l)
  | .permit id =>
    match s.access? id with
    | some a => if a.stage == .replying then s else out (if a.queued then s.leaveQueue a else s.dropAccess id)
    | none => out s
  | .waitv id => out (s.dropAccess id)
  | .fallback =>
    out (s.onCluster (txCluster core) fun q =>
      { q with fallbackWait := q.fallbackWait.filter fun w => w.2 != (core, gid, l) })
  | .reply _ => s
  | .fetch _ => s
  | _ => out s

/-- BUDGET_EXPIRE (R428). -/
def execBudgetExpire (s : State) : Host.Outcome State Fault Refusal :=
  let core := s.turn.unit
  let gid := s.turn.item
  let l := s.turn.sub
  if ((s.group core gid).lane l).budget = some 0 then
    let s := (s.leaveWait core gid l).onLane core gid l fun k => { k with budget := none }
    happened (s.addPending core gid l ⟨21, 0, 0, 0, none, none⟩)
  else .next s

/-! ### Freezing (R429) -/

/-- Issue of a FREEZE form for the region or slot that its literal names. -/
def State.freezeIssue (s : State) (f : FI) (act : State → Ctx → Nat → State) : Host.Outcome State Fault Refusal :=
  s.issueWith [] [] hypOnly fun s c => .done (if c.act.isEmpty then s.advance c else (act s c f.imm.toNat).advance c)

/-- FREEZE.REGION (R429). -/
def execFreezeRegion (f : FI) (s : State) : Host.Outcome State Fault Refusal :=
  s.freezeIssue f fun s c r => s.freezeRegion (dieOf c.core) r
/-- FREEZE.THAW (R429). -/
def execFreezeThaw (f : FI) (s : State) : Host.Outcome State Fault Refusal :=
  s.freezeIssue f fun s c r => s.thawRegion (dieOf c.core) r
/-- FREEZE.SLOT (R190, R429). -/
def execFreezeSlot (f : FI) (s : State) : Host.Outcome State Fault Refusal :=
  s.freezeIssue f fun s c j =>
    if ((s.core c.core).frozen.find? j).isSome then s
    else s.onCore c.core fun k =>
      let k := { k.mapGroups fun x => if x.slot = j then { x with frozenSlot := some s.clk } else x with frozen := k.frozen.put j s.clk }
      k.interrupt k.opFrozen
/-- FREEZE.SLOTTHAW (R429). -/
def execFreezeSlotthaw (f : FI) (s : State) : Host.Outcome State Fault Refusal :=
  s.freezeIssue f fun s c j =>
    s.onCore c.core fun k =>
      { k.mapGroups fun x => if x.slot = j then { x with frozenSlot := none } else x with frozen := k.frozen.erase j }

end Sys2Proof.Machine
end

