-- ==== Sys2Proof/Machine/Pager.lean ====
section
/-!
DEFINITION. Answers to parked work and halting (spec/17): PGDONE (R279, R421), REPLAY (R422), HALTG (R423).
-/
namespace Sys2Proof.Machine

/-! ### PGDONE (R279, R421) -/

/-- The fields of a fault record that PGDONE matches by (R277). -/
structure FaultKey where
  va : Nat
  seqno : Nat
  lanes : Nat
  core : Nat
  asid : Nat
  vmid : Nat
  log : Nat
deriving DecidableEq, Repr

/-- A record's key from its 64 bytes. -/
def FaultKey.ofImage (v : Nat) : FaultKey :=
  ⟨bits v 52 0, bits v 159 128, bits v 223 192, bits v 239 224, bits v 335 320, bits v 351 336, bits v 383 368⟩

/-- Whether a parked access waits for its lane's handler, not for the pager (R309, R343, R412). -/
def State.awaitsHandler (s : State) (a : Access) : Bool :=
  let k := (s.group a.core a.gid).lane a.lane
  a.race.isSome || k.pend.any (fun p => p.access == some a.id) || k.traps.any fun e => e.access == some a.id

/-- Whether an address of a space stands on the record's page. -/
def FaultKey.names (k : FaultKey) (pt vm va : Nat) : Bool :=
  k.asid == bits pt 11 0 && k.vmid == bits vm 11 0 && k.va / 8192 == va / 8192

/-- Whether a parked access is one that a record names (R421). -/
def State.recordNames (s : State) (k : FaultKey) (a : Access) : Bool :=
  a.core == k.core && a.stage == .parked && !a.orphan && a.seqno == k.seqno && k.lanes.testBit a.lane && !s.awaitsHandler a &&
  match a.log with
  | some n => k.log == n
  | none =>
    let (pt, vm) := (s.core a.core).roots a.slot
    k.log == 0xFFFF && k.names pt vm a.va

/-- Whether a lane is stalled on a fetch of the record's page (R275). -/
def State.fetchNamed (s : State) (k : FaultKey) (x : Group) (l : Nat) : Bool :=
  let (pt, vm) := (s.core k.core).roots x.slot
  match (x.lane l).wait with | .fetch va => k.names pt vm va | _ => false

/-- A transactional lane whose access or commit failed to translate aborts with FLT when the pager has answered (R333). -/
def State.abortFaulted (s : State) (a : Access) (denied : Bool) : State :=
  (s.abortTx a.core a.gid a.lane 5 fun t => { t with trapk := 1, deny := denied }).tendOver a

/-- A parked access released (R279): it replays with the acquire of the PGDONE; an instruction issues again; a transactional lane
aborts with FLT (R333). -/
def State.release (s : State) (v : Nat) (a : Access) : State :=
  let acq (s : State) : State := s.onLane a.core a.gid a.lane fun k => k.acquire v
  if a.tx then (acq s).abortFaulted a false
  else match a.kind with
  | .again _ => (acq (s.dropAccess a.id)).onLane a.core a.gid a.lane fun k => k.unwait a.id
  | _ => acq (s.setAccess { a with stage := .issued })

/-- A parked access denied (R279): the lane takes the memory trap, and its held accesses go with it; a transactional lane aborts
with FLT and DENY (R333). -/
def State.deny (s : State) (a : Access) : State :=
  if a.tx then s.abortFaulted a true
  else
    let held := (s.stuck a.core a.gid a.lane).filter fun b => b.id != a.id && s.isHeld b
    (held.foldl State.discard (s.discard a)).addPending a.core a.gid a.lane ⟨13, 2, a.va, 0, none, none⟩

/-- Whether a fault of a KV request is on the record's page. -/
def State.kvNamed (s : State) (k : FaultKey) (r : KvReq) : Bool :=
  let (pt, vm) := (s.core r.core).roots r.slot
  match r.fault with | some va => k.names pt vm va | none => false

/-- A KV request goes on (R365). -/
def KvReq.again (v : Nat) (r : KvReq) : KvReq := { r with fault := none, clock := stampMax r.clock v, horizon := stampMax r.horizon v }

/-- A KV request denied (R365): its lane takes the memory trap, and the request is abandoned. -/
def State.kvDeny (s : State) (r : KvReq) (va : Nat) : State := ((s.dropKv r).kvTrap r 13 2 va).kvEnd r

/-- A block of a pass whose address is denied: delivered with every sector marked as failing. -/
def Ridge.denyBlock (g : Ridge) (now : Nat) (p : Pass) : Ridge :=
  let n := blockSize p.entry.fmt
  let va := p.entry.addr + p.next * n
  let b : Staged := ⟨p.next, [], (List.range (n / 32)).map fun i => va + 32 * i, distinct (p.riders.map fun q => q.1), now⟩
  (g.onPass p.id fun p =>
    { p with fault := none, next := p.next + 1, staged := if b.cores.isEmpty then p.staged else p.staged ++ [b] }).closePass p.id

/-- What a record with LOG 0xFFFF matches on a die: copy requests, KV requests, passes (R421). -/
structure Transfers where
  eng : List EngReq
  kv : List KvReq
  passes : List Pass

/-- The transfers of a die that wait on a record's page. -/
def State.transfersOn (s : State) (k : FaultKey) : Transfers :=
  let d := s.die (dieOf k.core)
  let eng (r : EngReq) : Bool := match r.fault with | some va => let g := s.engAgent r; k.names g.pt g.vm va | none => false
  { eng := d.engine.filter eng, kv := (d.kvq ++ d.gathers).filter (s.kvNamed k),
    passes := d.ridge.passes.filter fun p => match p.fault with | some va => k.names p.pt p.vm va | none => false }

/-- Nothing waits. -/
def Transfers.isEmpty (t : Transfers) : Bool := t.eng.isEmpty && t.kv.isEmpty && t.passes.isEmpty

/-- Transfers resume at the faulting block (R279). -/
def State.resumeTransfers (s : State) (v die : Nat) (t : Transfers) : State :=
  let kv (r : KvReq) : KvReq := if t.kv.any (fun q => q.id == r.id) then r.again v else r
  s.onDie die fun d =>
    { d with engine := d.engine.map (fun r =>
               if t.eng.any (fun q => q.id == r.id) then { r with fault := none, stamp := stampMax r.stamp v } else r),
             kvq := d.kvq.map kv, gathers := d.gathers.map kv,
             ridge := t.passes.foldl (fun g p => g.onPass p.id fun p => { p with fault := none }) d.ridge }

/-- Transfers denied: copies end with DENIED (R354), KV requests are abandoned (R365). -/
def State.denyTransfers (s : State) (die : Nat) (t : Transfers) : State :=
  let s := t.eng.foldl (fun s r => (s.engErr r 1).setEng die { r with fault := none, ended := true }) s
  let s := t.kv.foldl (fun s r => s.kvDeny r (r.fault.getD 0)) s
  s.onDie die fun d => { d with ridge := t.passes.foldl (fun g p => g.denyBlock s.clk p) d.ridge }

/-- The lanes of a core stalled on a fetch of the record's page: group and lane. -/
def State.fetchesOn (s : State) (k : FaultKey) : List (Nat × Nat) :=
  (s.core k.core).groups.flatMap fun g => (g.2.live.filter fun l => s.fetchNamed k g.2 l).map fun l => (g.1, l)

/-- A lane stalled on a fetch of the record's page goes on (R275): it fetches again, or takes the memory trap; a transactional lane aborts with
FLT (R333). -/
def State.fetchAnswered (s : State) (deny : Bool) (v : Nat) (k : FaultKey) (gid l : Nat) : State :=
  let s := s.onLane k.core gid l fun q => let q := { q with wait := .none }; if deny then q else q.acquire v
  let t := ((s.group k.core gid).lane l).tx
  if t.active && !t.irrev then s.abortTx k.core gid l 5 fun t => { t with trapk := 1, deny := deny }
  else if deny then s.addPending k.core gid l ⟨13, 2, k.va, 0, none, none⟩ else s

/-- One record resolved (R421): whether anything matched. -/
def State.resolve (s : State) (deny : Bool) (v : Nat) (k : FaultKey) : State × Bool :=
  let as := s.accesses.filter (s.recordNames k)
  let s := as.foldl (fun s a => match s.access? a.id with
    | some b => if deny then s.deny b else s.release v b
    | none => s) s
  if k.log ≠ 0xFFFF then (s, !as.isEmpty)
  else
    let die := dieOf k.core
    let t := s.transfersOn k
    let fs := s.fetchesOn k
    let s := if deny then s.denyTransfers die t else s.resumeTransfers v die t
    let s := fs.foldl (fun s e => s.fetchAnswered deny v k e.1 e.2) s
    (s, !(as.isEmpty && t.isEmpty && fs.isEmpty))

/-- A record as a lane's PGDONE reads it, at its physical address. -/
def State.recordRead (s : State) (c : Ctx) (pa l : Nat) : Except AgentFail AgentOut :=
  s.agentGetSure { s.agentFor c.core c.gid l c.slot c.mode with phys := true, orders := true } ((s.grp c).lane l).c pa 64

/-- One lane's record: read as an acquire, then resolved; the value of D. A lane whose record is uncorrectable takes UNCORR at the
instruction, its register `d` as it was. -/
def State.pgdoneLane (s : State) (c : Ctx) (deny : Bool) (d : Operand) (pa l : Nat) : State × Nat :=
  match s.recordRead c pa l with
  | .error (.uncorr a) => (s.uncorrAgain c.core c.gid l c.pc a (2 ^ l), (s.grp c).rd32 d l)
  | .error _ => (s, 1)
  | .ok o =>
    let t := (o.s.onLane c.core c.gid l fun k =>
      let k := { k with c := stampMax k.c o.c }
      o.w.elim k fun w => { k with p := stampMax k.p w }.acquire w).tickLane c l
    let (u, hit) := t.resolve deny ((t.grp c).lane l).c (.ofImage o.value)
    (u, if hit then 0 else 1)

/-- PGDONE in either form (R421): a release at domain scope. -/
def State.pgdone (s : State) (f : F3) (deny : Bool) : Host.Outcome State Fault Refusal :=
  s.issueWith [] [dst32 f.d, src64 f.a] notUser fun s c =>
    let x := s.grp c
    if c.act.any fun l => x.rd64 f.a l % 8 != 0 then .done (s.alignTrap c 13 fun l => x.rd64 f.a l)
    else
      let waits (l : Nat) : Bool := match s.recordRead c (x.rd64 f.a l) l with | .error .busy => true | _ => false
      if s.cannotRelease c || c.act.any waits then .stall
      else
        let (t, vs) := c.act.foldl (fun (r : State × List (Nat × Nat)) l =>
          let q := r.1.pgdoneLane c deny f.d (x.rd64 f.a l) l
          (q.1, r.2 ++ [(l, q.2)])) (s.advance c, [])
        .done (t.onGrp c fun y => y.wr c f.d false fun l => valueFor vs l)

/-- PGDONE (R421). -/
def execPgdone (f : F3) (s : State) : Host.Outcome State Fault Refusal := s.pgdone f false
/-- PGDONE.DENY (R421). -/
def execPgdoneDeny (f : F3) (s : State) : Host.Outcome State Fault Refusal := s.pgdone f true

/-! ### REPLAY (R192, R422) -/

/-- The access that the top entry of a lane is about, if its kind is UNCORR. -/
def State.errored (s : State) (c : Ctx) (l : Nat) : Except TrapInfo (Option Access) :=
  match ((s.grp c).lane l).traps with
  | e :: _ => if e.kind = 19 then .ok (e.access.bind s.access?) else .error (operandTrap c)
  | [] => .error (operandTrap c)

/-- The top entry of a lane no longer names the access, which is resolved. -/
def Lane.resolved (k : Lane) : Lane :=
  match k.traps with
  | e :: r => { k with traps := { e with access := none } :: r }
  | [] => k

/-- REPLAY.DATA for a lane; a permit operation left undone has no stamp to fold (R308). -/
def State.replayData (s : State) (f : FK) (c : Ctx) (l : Nat) : Except TrapInfo State :=
  match s.errored c l with
  | .error t => .error t
  | .ok none => .ok s
  | .ok (some a) =>
    let v := (s.grp c).rdRegs f.d l ((a.size + 3) / 4)
    let s := s.onLane c.core c.gid l Lane.resolved
    match a.kind with
    | .atomic _ => .error (operandTrap c)
    | .proj _ _ _ => .error (operandTrap c)
    | .acpIn p n => .ok ((s.onCore a.core fun k => k.spadWrite p n (v % 256 ^ a.size)).endTransfer a a.c)
    | .acpOut _ => .ok (s.endTransfer a a.c)
    | _ =>
      let a := if a.isRequest then { a with stamp := ((s.grp c).lane l).c, readOf := none, horizon := none } else a
      .ok ((s.dropAccess a.id).onGroup a.core a.gid fun x =>
        (x.putReply { a with value := v % 256 ^ a.size }).onLane a.lane fun k => k.reply a)

/-- The registers that REPLAY.DATA reads: as many as the widest errored access of its lanes (R170, R286, R422). -/
def State.replayUse (s : State) (f : FK) : Use :=
  match s.ctx? with
  | none => src32 f.d
  | some c =>
    let n := c.act.foldl (fun n l => match s.errored c l with | .ok (some a) => max n a.size | _ => n) 1
    { srcData f.d (if n ≤ 4 then n else if n ≤ 8 then 8 else (n + 3) / 4 * 4) with constOk := false, noneOk := false }

/-- REPLAY.DATA (R422). -/
def execReplayData (f : FK) (s : State) : Host.Outcome State Fault Refusal :=
  s.issueWith [] [s.replayUse f] notUser fun s c =>
    let r := (s.advance c).laneFold (fun s l => s.replayData f c l) c.act
    .done ((r.1.retry c (r.2.map fun e => e.1)).trapLanes c r.2)

/-- REPLAY.RETRY (R422): the access is performed from memory again. -/
def execReplayRetry (s : State) : Host.Outcome State Fault Refusal :=
  s.issueWith [] [] notUser fun s c =>
    let r := (s.advance c).laneFold (fun s l => match s.errored c l with
      | .error t => .error t
      | .ok (some a) => .ok ((s.unpark a.id false).onLane c.core c.gid l Lane.resolved)
      | .ok none => .ok s) c.act
    .done ((r.1.retry c (r.2.map fun e => e.1)).trapLanes c r.2)

/-- The group's operation in STEP resumes, ahead of the queue (R190, R192). -/
def Core.resumeStep (k : Core) (gid : Nat) : Core :=
  match (k.groups.find? gid).elim [] fun x => x.step with
  | op :: _ => { k.onGroup gid fun x => { x with step := x.step.drop 1 } with queue := op :: k.queue }
  | [] => k

/-- REPLAY.OP (R422): once, for the lowest active lane; it waits for a place in the array queue (R188). -/
def execReplayOp (s : State) : Host.Outcome State Fault Refusal :=
  s.issueWith [] [] notUser fun s c =>
    if c.act.isEmpty then .done (s.advance c)
    else if !(s.grp c).step.isEmpty && decide (8 ≤ (s.core c.core).queue.length) then .stall
    else .done ((s.advance c).onCore c.core fun k => k.resumeStep c.gid)

/-! ### HALTG (R423) -/

/-- HALTG's checks: A names a group by its low five bits; in S mode one of the lane's own slot (R423). -/
def State.haltTarget (s : State) (f : FK) (c : Ctx) : Except Nat (Option Nat) :=
  let a := (s.grp c).rd32 f.a c.low
  if 32 ≤ a then .error 6
  else match s.group? c.core a with
    | none => .ok none
    | some x => if c.mode = .s ∧ x.slot ≠ c.slot then .error 8 else .ok (some a)

/-- HALTG (R423): lanes of the target act; D receives what `act` gives. -/
def State.haltg (s : State) (f : FK) (wide : Bool) (act : State → Ctx → Nat → Issued × Nat) : Host.Outcome State Fault Refusal :=
  s.issueWith [] [dstW wide f.d, src32 f.a] notUser fun s c =>
    let put (t : State) (v : Nat) : State := t.onGrp c fun y => y.wr c f.d wide fun _ => v
    if c.act.isEmpty then .done (s.advance c)
    else match s.haltTarget f c with
      | .error k => .done (s.enterTraps c.core c.gid (fun _ => ⟨k, 0, c.pc, 0, 0, none⟩) c.act)
      | .ok none => .done (put (s.advance c) 0)
      | .ok (some g) =>
        let t := put (s.advance c) (act s c g).2
        match (act t c g).1 with
        | .done u => .done u
        | r => r

/-- The live lanes of a group in a literal's mask. -/
def State.haltLanes (s : State) (core g : Nat) (f : FK) : List Nat := (s.group core g).live.filter fun l => f.imm.toNat.testBit l

/-- HALTG.STOP (R423). -/
def execHaltgStop (f : FK) (s : State) : Host.Outcome State Fault Refusal :=
  s.haltg f false fun s c g =>
    let ls := s.haltLanes c.core g f
    (.done (s.onLanes c.core g ls fun _ k => { k with halted := some (k.halted.getD .stop) }), maskOf ls)
/-- HALTG.GO (R423). -/
def execHaltgGo (f : FK) (s : State) : Host.Outcome State Fault Refusal :=
  s.haltg f false fun s c g =>
    let ls := (s.haltLanes c.core g f).filter fun l => ((s.group c.core g).lane l).halted.isSome
    (.done (s.onLanes c.core g ls fun _ k => { k with halted := none }), maskOf ls)

/-- Permit waits of lanes given up (R330, R423). -/
def State.leavePermits (s : State) (core gid : Nat) (ls : List Nat) : State :=
  ls.foldl (fun s l => match ((s.group core gid).lane l).wait with
    | .permit _ => s.leaveWait core gid l
    | .waitv _ => s.leaveWait core gid l
    | .fallback => s.leaveWait core gid l
    | _ => s) s

/-- KV requests and scanner requests of lanes that have ended go nowhere. -/
def State.orphanRequests (s : State) (core gid : Nat) (ls : List Nat) : State :=
  let kv (r : KvReq) : KvReq := if r.core = core ∧ r.gid = gid ∧ ls.contains r.lane then { r with orphan := true } else r
  s.onDie (dieOf core) fun d =>
    { d with kvq := d.kvq.map kv, gathers := d.gathers.map kv, cows := d.cows.map (fun w => { w with req := kv w.req }),
             pubs := d.pubs.map (fun p => { p with req := kv p.req }),
             scanq := d.scanq.map (fun r => if r.core = core ∧ r.gid = gid ∧ ls.contains r.lane then { r with dest := .none } else r) }

/-- Lanes killed (R423): as EXIT, but their parked and held accesses are discarded and they leave permit queues, and with the last lane
goes the operation that waits at STEP (R192); none while a submission this brings about must wait (R182). -/
def State.kill (s : State) (core gid : Nat) (ls : List Nat) : Option State :=
  let s := s.leavePermits core gid ls
  let s := (ls.flatMap fun l => s.stuck core gid l).foldl State.discard s
  (((s.orphanRequests core gid ls).endLanes core gid ls).submitAll core gid).map fun s =>
    let s := (s.onGroup core gid Group.raiseDeadlock).arriveBarrier core gid
    if (s.group core gid).live.isEmpty then s.onCore core fun k => k.discardStep gid else s

/-- HALTG.KILL (R423): an irrevocable run that it ends is a release, as at TEND (R337). -/
def execHaltgKill (f : FK) (s : State) : Host.Outcome State Fault Refusal :=
  s.haltg f false fun s c g =>
    let ls := s.haltLanes c.core g f
    let clear := (ls.flatMap fun l => s.stuck c.core g l).foldl State.discard s
    if !clear.mayRelease c.core g 3 ((s.group c.core g).runs ls) then (.stall, maskOf ls)
    else match s.kill c.core g ls with
      | some t => (.done t, maskOf ls)
      | none => (.stall, maskOf ls)

/-- A halt reason's number (R423). -/
def HaltReason.code : HaltReason → Nat
  | .stop => 0
  | .overflow => 1
  | .vector => 2
  | .ckptstop => 3

/-- HALTG.QUERY (R423). -/
def execHaltgQuery (f : FK) (s : State) : Host.Outcome State Fault Refusal :=
  s.haltg f true fun s c g =>
    let x := s.group c.core g
    let ls := x.live.filter fun l => (x.lane l).halted.isSome
    let reason := match ls with | [] => 0 | l :: _ => ((x.lane l).halted.map HaltReason.code).getD 0
    (.done s, maskOf ls + reason * 2 ^ 32)

end Sys2Proof.Machine
end

