-- ==== Sys2Proof/Machine/Save.lean ====
section
/-!
DEFINITION. The body of a CTXSV save area (R425): each saved record as a list of numbers and back, and numbers as bytes. The spec
leaves the layout to the hardware; CTXLD alone interprets it (log 18).
-/
namespace Sys2Proof.Machine

/-! ### Numbers as bytes -/

/-- The bytes of a number, least significant first, as many as it needs. -/
def natBytes : Nat → Nat → List Nat
  | 0, _ => []
  | fuel + 1, n => if n = 0 then [] else n % 256 :: natBytes fuel (n / 256)

/-- A number as a length byte and its bytes; one of 2^2040 or more does not occur. -/
def packNat (n : Nat) : List Nat := let b := natBytes 255 n; b.length :: b

/-- The number of little-endian bytes. -/
def bytesNat (l : List Nat) : Nat := l.foldr (fun b v => b + 256 * v) 0

/-- Numbers read back from their bytes, as many as are asked for. -/
def unpackNats : Nat → List Nat → Option (List Nat)
  | 0, _ => some []
  | _ + 1, [] => none
  | n + 1, k :: r => if r.length < k then none else (unpackNats n (r.drop k)).map fun t => bytesNat (r.take k) :: t

/-! ### Records as numbers -/

/-- A reader of a list of numbers. -/
abbrev Rd := StateT (List Nat) Option

/-- The next number. -/
def rdNat : Rd Nat := fun l => match l with | n :: r => some (n, r) | [] => none
/-- The next number as a truth value. -/
def rdBool : Rd Bool := do return (← rdNat) != 0
/-- Readings repeated. -/
def rdRep {α : Type} (f : Rd α) : Nat → Rd (List α)
  | 0 => return []
  | n + 1 => do let a ← f; let r ← rdRep f n; return a :: r
/-- A list behind its length. -/
def rdList {α : Type} (f : Rd α) : Rd (List α) := do rdRep f (← rdNat)
/-- What may be absent. -/
def rdOpt {α : Type} (f : Rd α) : Rd (Option α) := do if ← rdBool then return some (← f) else return none
/-- A pair. -/
def rdPair {α β : Type} (f : Rd α) (g : Rd β) : Rd (α × β) := do return (← f, ← g)
/-- A bit vector. -/
def rdVec (w : Nat) : Rd (BitVec w) := do return BitVec.ofNat w (← rdNat)
/-- A register field. -/
def rdOperand : Rd Operand := do return Operand.ofBits (BitVec.ofNat 10 (← rdNat))

/-- A list behind its length. -/
def wrList {α : Type} (f : α → List Nat) (l : List α) : List Nat := l.length :: l.flatMap f
/-- What may be absent. -/
def wrOpt {α : Type} (f : α → List Nat) : Option α → List Nat
  | none => [0]
  | some a => 1 :: f a
/-- A truth value. -/
def wrBool (b : Bool) : List Nat := [b.toNat]
/-- A number. -/
def wrNat (n : Nat) : List Nat := [n]
/-- A pair of numbers. -/
def wrPair (p : Nat × Nat) : List Nat := [p.1, p.2]
/-- An entry of a sparse map. -/
def wrCell {w : Nat} (e : Nat × BitVec w) : List Nat := [e.1, e.2.toNat]
/-- A register field. -/
def wrOperand (o : Operand) : List Nat := [o.toBits.toNat]

/-- A sparse map, in canonical form whatever was read. -/
def rdCells (w : Nat) : Rd (Map (BitVec w)) := do
  return (← rdList (rdPair rdNat (rdVec w))).foldl (fun m e => sput m e.1 e.2) []

/-- A sparse map's entries, as many keys together as one number holds. -/
def chunksOf {w : Nat} (per : Nat) (m : Map (BitVec w)) : List (Nat × Nat) :=
  m.foldr (fun e r =>
    let v := e.2.toNat * 2 ^ (w * (e.1 % per))
    match r with
    | (c, x) :: t => if c = e.1 / per then (c, x + v) :: t else (e.1 / per, v) :: r
    | [] => [(e.1 / per, v)]) []
/-- A dense map, `per` keys to a number: a slot's partition, window and tiles take little more than their own bytes (R425). -/
def wrChunks {w : Nat} (per : Nat) (m : Map (BitVec w)) : List Nat := wrList wrPair (chunksOf per m)
/-- A dense map read back. -/
def rdChunks (w per : Nat) : Rd (Map (BitVec w)) := do
  return ((← rdList (rdPair rdNat rdNat)).flatMap fun c => (List.range per).map fun i => (c.1 * per + i, BitVec.ofNat w (c.2 / 2 ^ (w * i)))).foldr
    (fun e m => sput m e.1 e.2) []
/-- A set of keys, as a map of bits. -/
def wrMarks (per : Nat) (l : List Nat) : List Nat := wrChunks per (l.foldl (fun m n => sput m n 1#1) [])
/-- A set of keys read back. -/
def rdMarks (per : Nat) : Rd (List Nat) := do return (← rdChunks 1 per).map fun e => e.1

/-- A map, in canonical form whatever was read. -/
def rdMap {α : Type} (f : Rd α) : Rd (Map α) := do return (← rdList (rdPair rdNat f)).foldl (fun m e => m.put e.1 e.2) []

/-- The mode of a number. -/
def Mode.ofCode (n : Nat) : Mode := if n = 0 then .u else if n = 1 then .s else .h
/-- The halt reason of a number. -/
def HaltReason.ofCode (n : Nat) : HaltReason := if n = 0 then .stop else if n = 1 then .overflow else if n = 2 then .vector else .ckptstop

/-- A trap-stack entry. -/
def TrapEntry.save (e : TrapEntry) : List Nat :=
  [e.tpc.toNat, e.pmode.toNat, e.tpred.toNat, e.kind, e.cause, e.tval, e.tinfo] ++ wrOpt wrNat e.access
/-- A trap-stack entry read back. -/
def TrapEntry.load : Rd TrapEntry := do
  return ⟨← rdVec 53, ← rdVec 2, ← rdVec 16, ← rdNat, ← rdNat, ← rdNat, ← rdNat, ← rdOpt rdNat⟩

/-- A pending event. -/
def Pending.save (e : Pending) : List Nat := [e.kind, e.cause, e.tval, e.tinfo] ++ wrOpt wrNat e.access ++ wrOpt (fun p => [p.toNat]) e.pc
/-- A pending event read back. -/
def Pending.load : Rd Pending := do return ⟨← rdNat, ← rdNat, ← rdNat, ← rdNat, ← rdOpt rdNat, ← rdOpt (rdVec 53)⟩

/-- A log sector. -/
def LogSector.save (e : LogSector) : List Nat := [e.pa, e.va, e.bytes, e.mask]
/-- A log sector read back. -/
def LogSector.load : Rd LogSector := do return ⟨← rdNat, ← rdNat, ← rdNat, ← rdNat⟩

/-- A transaction (R341). -/
def Tx.save (t : Tx) : List Nat :=
  wrBool t.active ++ wrBool t.irrev ++ [t.depth, t.count] ++ wrBool t.wide ++ wrBool t.deny ++ [t.ucode, t.trapk, t.code] ++
  wrOpt (fun p => [p.toNat]) t.lastPc ++ [t.target.toNat] ++ wrOperand t.dest ++ wrList LogSector.save t.reads ++
  wrList LogSector.save t.writes ++ wrList wrNat t.locks ++ wrOpt wrNat t.permit ++ [t.since] ++ wrOpt wrBool t.validating ++ wrBool t.faulted
/-- A transaction read back. -/
def Tx.load : Rd Tx := do
  return ⟨← rdBool, ← rdBool, ← rdNat, ← rdNat, ← rdBool, ← rdBool, ← rdNat, ← rdNat, ← rdNat, ← rdOpt (rdVec 53), ← rdVec 53, ← rdOperand,
    ← rdList LogSector.load, ← rdList LogSector.load, ← rdList rdNat, ← rdOpt rdNat, ← rdNat, ← rdOpt rdBool, ← rdBool⟩

/-- What holds a lane. -/
def Wait.save : Wait → List Nat
  | .none => [0]
  | .waitm k => [1, k]
  | .await w p d => [2, w, p] ++ wrOperand d
  | .cbar i n p => [3, i, n, p]
  | .kbar i n p => [4, i, n, p]
  | .cred i n p ctl d a c norm => [5, i, n, p, ctl, d, a, c] ++ wrBool norm
  | .nap u => [6, u]
  | .tag k => [7, k]
  | .permit r => [8, r]
  | .waitv r => [9, r]
  | .fallback => [10]
  | .reply r => [11, r]
  | .fetch va => [12, va]
/-- What holds a lane, read back. -/
def Wait.load : Rd Wait := do
  match ← rdNat with
  | 1 => return .waitm (← rdNat)
  | 2 => return .await (← rdNat) (← rdNat) (← rdOperand)
  | 3 => return .cbar (← rdNat) (← rdNat) (← rdNat)
  | 4 => return .kbar (← rdNat) (← rdNat) (← rdNat)
  | 5 => return .cred (← rdNat) (← rdNat) (← rdNat) (← rdNat) (← rdNat) (← rdNat) (← rdNat) (← rdBool)
  | 6 => return .nap (← rdNat)
  | 7 => return .tag (← rdNat)
  | 8 => return .permit (← rdNat)
  | 9 => return .waitv (← rdNat)
  | 10 => return .fallback
  | 11 => return .reply (← rdNat)
  | 12 => return .fetch (← rdNat)
  | _ => return .none

/-- What a lane that issues again still owes. -/
def Again.save (a : Again) : List Nat := wrOperand a.dest ++ [a.regs] ++ wrBool a.flags
/-- What a lane that issues again still owes, read back. -/
def Again.load : Rd Again := do return ⟨← rdOperand, ← rdNat, ← rdBool⟩

/-- A lane. -/
def Lane.save (k : Lane) : List Nat :=
  wrBool k.live ++ [k.pc.toNat, k.mode.code.toNat, k.pred.toNat] ++ wrList TrapEntry.save k.traps ++ wrList wrCell k.xs ++ wrList wrCell k.xh ++
  [k.c, k.h, k.p] ++ k.tx.save ++ k.wait.save ++ wrOpt (fun h => [HaltReason.code h]) k.halted ++ wrList Pending.save k.pend ++
  wrOpt wrNat k.budget ++ wrBool k.startCheck ++ wrOpt Again.save k.again
/-- A lane read back. -/
def Lane.load : Rd Lane := do
  return ⟨← rdBool, ← rdVec 53, .ofCode (← rdNat), ← rdVec 16, ← rdList TrapEntry.load, ← rdCells 64, ← rdCells 64, ← rdNat, ← rdNat,
    ← rdNat, ← Tx.load, ← Wait.load, (← rdOpt rdNat).map .ofCode, ← rdList Pending.load, ← rdOpt rdNat, ← rdBool, ← rdOpt Again.load⟩

/-- A matrix operation with the steps completed (R190); it goes without a bank and without a ride (R179, R249). -/
def MatOp.save (o : MatOp) : List Nat :=
  [o.id, o.gid, o.owner, o.slot] ++ wrOpt wrPair o.adpt ++ [o.height, o.acc, o.fmta] ++ wrOpt wrNat o.daReg ++ wrPair o.daDesc ++
  wrOpt wrPair o.db ++ wrList wrNat o.chain ++ wrOpt wrNat o.tag ++ [o.mask] ++ wrOpt wrNat o.stamp ++ wrBool o.ftz ++
  [o.slices, o.stages] ++ wrChunks 32 o.work ++ [o.flags] ++
  wrOpt (wrChunks 128) o.buffer ++ wrBool (o.cut || o.running)
/-- A matrix operation read back: neither running nor streamed. -/
def MatOp.load : Rd MatOp := do
  return { id := ← rdNat, gid := ← rdNat, owner := ← rdNat, slot := ← rdNat, adpt := ← rdOpt (rdPair rdNat rdNat), height := ← rdNat,
           acc := ← rdNat, fmta := ← rdNat, daReg := ← rdOpt rdNat, daDesc := ← rdPair rdNat rdNat, db := ← rdOpt (rdPair rdNat rdNat),
           chain := ← rdList rdNat, tag := ← rdOpt rdNat, mask := ← rdNat, stamp := ← rdOpt rdNat, ftz := ← rdBool, bank := none,
           ride := none, slices := ← rdNat, stages := ← rdNat, work := ← rdChunks 32 32, flags := ← rdNat, running := false,
           streamed := false, buffer := ← rdOpt (rdChunks 8 128), cut := ← rdBool }

/-- A mask register with its signature set and pending operation. -/
def MaskReg.save (m : MaskReg) : List Nat := [m.enrol, m.arr] ++ wrList wrPair m.stamps ++ [m.sig, m.sigStamp] ++ wrOpt MatOp.save m.pending
/-- A mask register read back. -/
def MaskReg.load : Rd MaskReg := do return ⟨← rdNat, ← rdNat, ← rdMap rdNat, ← rdNat, ← rdNat, ← rdOpt MatOp.load⟩

/-- A copy tag. -/
def Tag.save (t : Tag) : List Nat := [t.count] ++ wrOpt wrNat t.stamp ++ [t.err]
/-- A copy tag read back. -/
def Tag.load : Rd Tag := do return ⟨← rdNat, ← rdOpt rdNat, ← rdNat⟩

/-- A row of a tile. -/
def TileRow.save : TileRow → List Nat
  | .pad => [0, 0]
  | .held r => [1, r]
  | .gone r => [2, r]
/-- A row of a tile read back. -/
def TileRow.load : Rd TileRow := do
  let k ← rdNat
  let r ← rdNat
  return if k = 1 then .held r else if k = 2 then .gone r else .pad

/-- A group: its window's size stands for the granules, and it goes without a ride, a boarding or a freeze (R249, R426). -/
def Group.save (x : Group) : List Nat :=
  [x.gid, x.slot, x.stamp, x.uid, x.window.length] ++ wrChunks 32 x.v ++ wrMarks 32 x.badV ++ wrList wrCell x.s ++
  wrList Lane.save x.lanes ++ wrList MaskReg.save x.masks ++ [x.opid, x.tenant, x.rows, x.tileh] ++ wrList TileRow.save x.tile ++
  [x.tileTag, x.tileFired, x.tileOrder, x.fpctl, x.fpstat] ++ wrList Tag.save x.tags ++ [x.current, x.turn] ++ wrBool x.idem ++
  [x.seqno] ++ wrBool x.eject ++ wrList MatOp.save x.step ++ wrOpt wrNat x.parent
/-- A group read back; its granules are numbered from zero. -/
def Group.load : Rd Group := do
  return { gid := ← rdNat, slot := ← rdNat, pipe := 0, stamp := ← rdNat, uid := ← rdNat, window := List.range (← rdNat), v := ← rdChunks 32 32,
           badV := ← rdMarks 32, s := ← rdCells 64, lanes := ← rdList Lane.load, masks := ← rdList MaskReg.load, opid := ← rdNat,
           tenant := ← rdNat, rows := ← rdNat, tileh := ← rdNat, tile := ← rdList TileRow.load, tileTag := ← rdNat, tileFired := ← rdNat,
           tileOrder := ← rdNat, fpctl := ← rdNat, fpstat := ← rdNat, tags := ← rdList Tag.load, current := ← rdNat, turn := ← rdNat,
           idem := ← rdBool, seqno := ← rdNat, ride := none, boardings := [], eject := ← rdBool, step := ← rdList MatOp.load,
           frozenSlot := none, frozenRegion := none, parent := ← rdOpt rdNat, lastIssue := none, skip := 0 }

/-- What an access does. -/
def AccKind.save : AccKind → List Nat
  | .load b => [0, b.toNat, 0]
  | .store => [1, 0, 0]
  | .atomic n => [2, n, 0]
  | .atomicR n => [3, n, 0]
  | .pacq => [4, 0, 0]
  | .prel => [5, 0, 0]
  | .ptry => [6, 0, 0]
  | .waitv n => [7, n, 0]
  | .acpIn p n => [8, p, n]
  | .acpOut p => [9, p, 0]
  | .proj n d pid => [10, 16 * d + n, pid]
  | .again n => [11, n, 0]
  | .commit q m ab => [12, q, 16 * ab + m]
/-- What an access does, read back. -/
def AccKind.unsave : Rd AccKind := do
  let k ← rdNat
  let a ← rdNat
  let b ← rdNat
  match k with
  | 0 => return .load (a != 0)
  | 1 => return .store
  | 2 => return .atomic a
  | 3 => return .atomicR a
  | 4 => return .pacq
  | 5 => return .prel
  | 6 => return .ptry
  | 7 => return .waitv a
  | 8 => return .acpIn a b
  | 9 => return .acpOut a
  | 10 => return .proj (a % 16) (a / 16) b
  | 11 => return .again a
  | _ => return .commit a (b % 16) (b / 16)

/-- An access that is parked, or held behind one that is; `parks` says whether it awaits its lane's handler. -/
def Access.save (a : Access) (parks : Bool) : List Nat :=
  [a.id, a.core, a.gid, a.lane, a.seqno, a.pc.toNat, a.mode.code.toNat, a.slot] ++ a.kind.save ++
  [a.sem, a.scope, a.rd, a.va, a.size, a.data, a.data2, a.mask] ++ wrOperand a.dest ++ [a.regs] ++ wrOpt wrNat a.tag ++ [a.c, a.h] ++
  wrBool a.tx ++ wrBool a.irrev ++ wrBool parks ++ [a.pa] ++ wrBool a.repl ++ wrBool a.passed ++
  wrOpt (fun r => [r.1, r.2.1, r.2.2.1, r.2.2.2]) a.race ++ [a.since] ++ wrOpt wrNat a.timeout ++ wrBool a.late ++ wrBool a.held ++ wrBool a.logWait ++ wrBool a.away ++ wrOpt wrNat a.floor ++
  wrList (fun p => [p.1, p.2]) a.peers
/-- An access read back: parked where it awaits its lane's handler, else to translate afresh (R426). -/
def Access.load : Rd Access := do
  return { id := ← rdNat, core := ← rdNat, gid := ← rdNat, lane := ← rdNat, seqno := ← rdNat, pc := ← rdVec 53, mode := .ofCode (← rdNat),
           slot := ← rdNat, kind := ← AccKind.unsave, sem := ← rdNat, scope := ← rdNat, rd := ← rdNat, va := ← rdNat, size := ← rdNat,
           data := ← rdNat, data2 := ← rdNat, mask := ← rdNat, dest := ← rdOperand, regs := ← rdNat, tag := ← rdOpt rdNat, c := ← rdNat,
           h := ← rdNat, tx := ← rdBool, irrev := ← rdBool, stage := if ← rdBool then .parked else .issued, pa := ← rdNat,
           repl := ← rdBool, log := none, passed := ← rdBool,
           race := ← rdOpt (do return (← rdNat, ← rdNat, ← rdNat, ← rdNat)), value := 0, stamp := 0, readOf := none, horizon := none,
           since := ← rdNat, timeout := ← rdOpt rdNat, late := ← rdBool, held := ← rdBool, logWait := ← rdBool, queued := false,
           away := ← rdBool, order := 0, floor := ← rdOpt rdNat, orphan := false, set := 0,
           peers := ← rdList (do return (← rdNat, ← rdNat)) }

/-- What an engine request does. -/
def EngKind.save : EngKind → List Nat
  | .copy a b => [0, a.toNat, b.toNat]
  | .gath r l => [1, r, l]
  | .fill p w => [2, p, w]
  | .mcast a => [3, a.toNat, 0]
  | .adapter => [4, 0, 0]
/-- What an engine request does, read back. -/
def EngKind.load : Rd EngKind := do
  let k ← rdNat
  let a ← rdNat
  let b ← rdNat
  match k with
  | 0 => return .copy (a != 0) (b != 0)
  | 1 => return .gath a b
  | 2 => return .fill a b
  | 3 => return .mcast (a != 0)
  | _ => return .adapter

/-- A parked engine request (R347). -/
def EngReq.save (r : EngReq) : List Nat :=
  [r.id, r.gid, r.uid, r.slot, r.lane, r.mode.code.toNat, r.pc, r.seqno] ++ r.kind.save ++ wrOpt wrNat r.tag ++ wrOpt wrNat r.errTag ++
  [r.dst, r.src, r.bytes, r.done] ++ wrBool r.phys ++ wrList wrPair r.targets ++ wrOpt wrNat r.arrive ++ [r.stamp] ++
  wrOpt wrNat r.zeroed ++ wrBool r.irrev
/-- A parked engine request read back: it goes on at the block that failed. -/
def EngReq.load (core : Nat) : Rd EngReq := do
  return { id := ← rdNat, core := core, gid := ← rdNat, uid := ← rdNat, slot := ← rdNat, lane := ← rdNat, mode := .ofCode (← rdNat),
           pc := ← rdNat, seqno := ← rdNat, kind := ← EngKind.load, tag := ← rdOpt rdNat, errTag := ← rdOpt rdNat, dst := ← rdNat,
           src := ← rdNat, bytes := ← rdNat, done := ← rdNat, phys := ← rdBool, targets := ← rdList (rdPair rdNat rdNat),
           arrive := ← rdOpt rdNat, stamp := ← rdNat, fault := none, ended := false, moving := false, zeroed := ← rdOpt rdNat, irrev := ← rdBool }

/-- A core barrier counter. -/
def Barrier.save (b : Barrier) : List Nat := wrList wrNat b.arrived ++ [b.expected, b.phase, b.clock, b.passed]
/-- A core barrier counter read back. -/
def Barrier.load : Rd Barrier := do return ⟨← rdList rdNat, ← rdNat, ← rdNat, ← rdNat, ← rdNat⟩

/-- What CTXSV saves of a slot (R425). Scratchpad addresses are relative to the slot's partition. `ids` is above every name of a
group, access or request in it. -/
structure CtxImage where
  ids : Nat
  spad : Map Byte
  badSpad : List Nat
  hidden : Map (BitVec 82)
  acc : Map Word
  badAcc : List Nat
  /-- Core barriers by id. -/
  cbar : List (Nat × Barrier)
  groups : List Group
  /-- Accesses, each with whether it awaits its lane's handler. -/
  accesses : List (Access × Bool)
  ops : List MatOp
  reqs : List EngReq
deriving DecidableEq, Repr

/-- The numbers of an image. -/
def CtxImage.save (i : CtxImage) : List Nat :=
  [i.ids] ++ wrChunks 128 i.spad ++ wrMarks 1024 i.badSpad ++ wrList wrCell i.hidden ++ wrChunks 32 i.acc ++ wrMarks 1024 i.badAcc ++
  wrList (fun e => e.1 :: e.2.save) i.cbar ++ wrList Group.save i.groups ++ wrList (fun e => Access.save e.1 e.2) i.accesses ++
  wrList MatOp.save i.ops ++ wrList EngReq.save i.reqs
/-- An image read back for a core. -/
def CtxImage.load (core : Nat) : Rd CtxImage := do
  let access : Rd (Access × Bool) := do let a ← Access.load; return ({ a with core := core }, a.stage == .parked)
  return ⟨← rdNat, ← rdChunks 8 128, ← rdMarks 1024, ← rdCells 82, ← rdChunks 32 32, ← rdMarks 1024, ← rdList (rdPair rdNat Barrier.load),
    ← rdList Group.load, ← rdList access, ← rdList MatOp.load, ← rdList (EngReq.load core)⟩

/-- The body of a save area: how many numbers, then the numbers, filled up to whole words. -/
def CtxImage.bytes (i : CtxImage) : List Nat :=
  let ns := i.save
  let b := (ns.length :: ns).flatMap packNat
  b ++ List.replicate ((4 - b.length % 4) % 4) 0

/-- An image read back from a body; none where it is malformed. -/
def CtxImage.ofBytes (core : Nat) (b : List Nat) : Option CtxImage :=
  match unpackNats 1 b with
  | some (n :: _) =>
    match unpackNats n (b.drop (1 + b.headD 0)) with
    | some ns => ((CtxImage.load core).run ns).map fun r => r.1
    | none => none
  | _ => none

/-! ### The header (R426) -/

/-- The header of a save area. -/
structure CtxHeader where
  magic : Nat
  version : Nat
  slot : Nat
  groups : Nat
  bytes : Nat
  spsize : Nat
  accmask : Nat
  flushed : Nat
  core : Nat
  check : Nat
  clock : Nat
deriving DecidableEq, Repr

/-- The 64 bytes of a header, little-endian. -/
def CtxHeader.image (h : CtxHeader) : Nat :=
  h.magic + h.version * 2 ^ 32 + h.slot * 2 ^ 48 + h.groups * 2 ^ 56 + h.bytes * 2 ^ 64 + h.spsize * 2 ^ 96 + h.accmask * 2 ^ 112 +
  h.flushed * 2 ^ 120 + h.core * 2 ^ 128 + h.check * 2 ^ 160 + h.clock * 2 ^ 192

/-- A header read from its 64 bytes. -/
def CtxHeader.ofImage (v : Nat) : CtxHeader :=
  ⟨bits v 31 0, bits v 47 32, bits v 55 48, bits v 63 56, bits v 95 64, bits v 111 96, bits v 119 112, bits v 127 120, bits v 143 128,
   bits v 191 160, bits v 255 192⟩

/-- The XOR of the 32-bit words of bytes. -/
def xorWords : Nat → List Nat → Nat
  | 0, _ => 0
  | n + 1, l => bytesNat (l.take 4) ^^^ xorWords n (l.drop 4)

/-- Whether a header passes by itself (R426). -/
def CtxHeader.ok (v : Nat) : Bool :=
  let h := CtxHeader.ofImage v
  h.magic == 0x56534331 && h.version == 1 && decide (h.slot < 4) && decide (h.groups ≤ 24) && decide (64 ≤ h.bytes) &&
  decide (h.bytes ≤ 5 * 2 ^ 20) && h.bytes % 4 == 0 && decide (h.spsize ≤ 96) && decide (h.accmask < 16) && bits v 159 144 == 0 &&
  bits v 511 256 == 0

end Sys2Proof.Machine
end

