-- ==== Sys2Proof/Machine/Context.lean ====
section
/-!
DEFINITION. Context save and load (spec/17): CTXSV and CTXLD (R425, R426).
-/
namespace Sys2Proof.Machine

/-! ### When a slot is at rest (R190, R347, R425) -/

/-- The groups of a slot of a core. -/
def Core.slotGroups (k : Core) (slot : Nat) : List Group := (k.groups.map fun e => e.2).filter fun x => x.slot == slot

/-- Whether an access of a core belongs to a slot's groups. -/
def State.inSlotAcc (s : State) (core slot : Nat) (a : Access) : Bool :=
  a.core == core && match s.group? core a.gid with | some x => x.slot == slot | none => false

/-- Whether an access waits at its lane's own request for what may never come: a permit or a word's value (R292, R330). -/
def Access.waitsOn (a : Access) : Bool :=
  match a.kind with | .pacq => a.stage == .ready || a.queued | .waitv _ => a.stage == .issued || a.stage == .ready || a.stage == .granted | _ => false

/-- Whether an access holds nothing up: parked, blocked by its lane's parked one, or waiting at its owner. A transfer that is not parked is
waited for (R347). -/
def State.atRest (s : State) (a : Access) : Bool :=
  let mine (b : Access) : Bool := b.core == a.core && b.gid == a.gid && b.stage == .parked && decide (b.id < a.id)
  a.stage == .parked || a.waitsOn ||
  ((a.stage == .issued || a.stage == .ready) && a.plainLane && s.accesses.any (fun b => mine b && b.lane == a.lane) && !s.inOrder a)

/-- Whether a save takes an operation of the array as it stands (R179, R190, R249): its group is frozen, or no bank is freed by its going
on. Every event leaves an operation at a step boundary. -/
def Core.opAtRest (k : Core) (o : MatOp) : Bool := k.opFrozen o || !(k.neededOps.any fun q => q.id == o.id)

/-- Whether no transfer, request or access of a slot is in flight, except parked ones, and its sequencer work stands at step
boundaries (R425). -/
def State.slotQuiet (s : State) (core slot : Nat) : Bool :=
  let k := s.core core
  let d := s.die (dieOf core)
  let xs := k.slotGroups slot
  let gid (g : Nat) : Bool := xs.any fun x => x.gid == g
  let uid (u : Nat) : Bool := xs.any fun x => x.uid == u
  let at_ (c g : Nat) : Bool := c == core && gid g
  (s.accesses.all fun a => !s.inSlotAcc core slot a || s.atRest a) &&
  (d.engine.all fun r => !(r.core == core && uid r.uid) || r.fault.isSome) &&
  (d.kvOpenReqs.all fun r => !at_ r.core r.gid) && (d.scanq.all fun r => !at_ r.core r.gid) &&
  (k.fills.all fun q => !gid q.gid) && (xs.all fun x => x.boardings.isEmpty) && (d.ridge.syncs.all fun w => !at_ w.core w.gid) &&
  (s.invals.all fun i => !at_ i.core i.gid) && (k.spmapNew.all fun w => !gid w.2.1) && (k.accownNew.all fun w => !gid w.2.1) &&
  (k.banks.all fun b => !(b.st == 1 && b.owner.elim false uid)) && (k.queue.all fun o => !uid o.owner || k.opAtRest o)

/-! ### Flushing (R223, R424, R425) -/

/-- A group and the resident groups it has spawned, and those they have. -/
def family (xs : List Group) (uid : Nat) : Nat → List Nat
  | 0 => [uid]
  | n + 1 =>
    let f := family xs uid n
    f ++ (xs.filter fun x => x.parent.elim false f.contains && !f.contains x.uid).map fun x => x.uid

/-- The groups that a save flushes (R425). -/
def Core.flushed (k : Core) (slot : Nat) : List Group :=
  let all := k.groups.map fun e => e.2
  let fam (x : Group) : List Nat := family all x.uid 24
  let idem (u : Nat) : Bool := all.all fun x => x.uid != u || x.idem
  let roots := (k.slotGroups slot).filter fun x => !x.tile.isEmpty && x.idem && (fam x).all idem
  all.filter fun x => roots.any fun r => (fam r).contains x.uid

/-- A flushed group's tile, as it stood in its operator's ready queue. -/
def Group.asTile (x : Group) : Tile :=
  { rows := x.tile.filterMap fun t => match t with | .held r => some r | _ => none, tag := x.tileTag, height := x.tileh,
    tenant := x.tenant, fired := x.tileFired, order := x.tileOrder }

/-- The arrivals of a group at barriers taken back, and its own requests dropped. -/
def State.forget (s : State) (core : Nat) (x : Group) : State :=
  let mine (a : Access) : Bool := a.core == core && a.gid == x.gid
  let leave (b : Barrier) : Barrier := { b with arrived := b.arrived.filter fun u => u != x.uid }
  let s := (List.range 32).foldl (fun s l => (s.endIrrev core x.gid l)) s
  let s := { s with accesses := s.accesses.filter fun a => !mine a }
  let s := match clusterOf core with
    | some cl => s.onCluster cl fun q =>
        { q with kbar := q.kbar.map (fun (e : Nat × Barrier) => (e.1, leave e.2)), fallbackWait := q.fallbackWait.filter fun w => !(w.2.1 == core && w.2.2.1 == x.gid) }
    | none => s
  let s := s.onDie (dieOf core) fun d =>
    { d with faults := d.faults.filter (fun r => !(r.core == core && r.gid == x.gid)),
             engine := d.engine.filter fun r => !(r.core == core && r.uid == x.uid) }
  s.onCore core fun k =>
    { k with cbar := k.cbar.map (fun (e : Nat × Barrier) => (e.1, leave e.2)), queue := k.queue.filter fun o => o.owner != x.uid }

/-- A group discarded: its tile, rows still held, goes back to the head of its operator's ready queue (R223, R425), which a clone shares
with its original (R228). -/
def State.flush (s : State) (core : Nat) (x : Group) : State :=
  let s := (s.forget core x).onCore core fun k => ({ k with groups := k.groups.erase x.gid }).giveUpBank x.uid
  if x.tile.isEmpty then s
  else (s.onDie (dieOf core) fun d => d.onOp (d.canon x.opid) fun o => { o with ready := x.asTile :: o.ready }).noteDie (dieOf core)

/-! ### What is saved (R425) -/

/-- A lane as it is saved: a wait that ends with the save leaves it at its instruction, which issues again. -/
def State.restLane (s : State) (kept : Nat → Bool) (k : Lane) : Lane :=
  let commits : Bool := match k.wait with | .reply id => s.accesses.any fun a => a.kind.ofTend id | _ => false
  let k := { k with tx := { k.tx with faulted := k.tx.faulted && commits } }
  match k.wait with
  | .waitv _ => { k with wait := .none }
  | .fallback => { k with wait := .none }
  | .fetch _ => { k with wait := .none }
  | .reply id =>
    if kept id then k
    else { k with wait := .none, pc := (s.accesses.find? fun a => a.id == id && a.tx).elim k.pc fun a => a.pc }
  | .permit id => if s.accesses.any (fun a => a.id == id && (a.queued || a.stage == .replying)) then k else { k with wait := .none }
  | _ => k

/-- A wait that names a scratchpad address of the core, moved by a change of partition base. -/
def Wait.rebase (b0 b1 : Nat) : Wait → Wait
  | .await w p d => .await (w - b0 + b1) p d
  | w => w

/-- An access whose scratchpad address moves with its partition. -/
def Access.rebase (b0 b1 : Nat) (a : Access) : Access :=
  match a.kind with
  | .acpIn p n => { a with kind := .acpIn (p - b0 + b1) n }
  | .acpOut p => { a with kind := .acpOut (p - b0 + b1) }
  | _ => a

/-- An engine request whose scratchpad addresses move with its partition. -/
def EngReq.rebase (b0 b1 : Nat) (r : EngReq) : EngReq :=
  let mv (p : Nat) : Nat := p - b0 + b1
  match r.kind with
  | .copy d c => { r with dst := if d then mv r.dst else r.dst, src := if c then mv r.src else r.src }
  | .gath w l => { r with kind := .gath w (mv l), dst := mv r.dst }
  | .adapter => { r with dst := mv r.dst }
  | .mcast c => { r with src := if c then mv r.src else r.src }
  | .fill _ _ => r

/-- Whether an access of a saved group is saved: parked or blocked, and not one whose instruction issues again. -/
def Access.isSaved (a : Access) : Bool :=
  !a.waitsOn && !a.orphan && match a.kind with | .again _ => false | .commit _ _ _ => true | _ => !a.tx

/-- The image of a slot whose flushed groups have gone (R425). -/
def State.ctxImage (s : State) (core slot : Nat) : CtxImage :=
  let k := s.core core
  let base := k.partBase slot
  let size := k.partSize slot
  let xs := k.slotGroups slot
  let accs := (s.accesses.filter fun a => s.inSlotAcc core slot a && a.isSaved)
  let reqs := (s.die (dieOf core)).engine.filter fun r => r.core == core && xs.any fun x => x.uid == r.uid
  let kept (id : Nat) : Bool := accs.any (fun a => a.id == id || a.kind.ofTend id) || reqs.any fun r => r.id == id
  let rel {w : Nat} (m : Map (BitVec w)) : Map (BitVec w) := (takeRange m base size).map fun e => (e.1 - base, e.2)
  let tiles := [0, 1, 2, 3].filter fun t => k.accown.toNat.testBit (8 + t) && ownOf k.accown.toNat t == slot
  let inTile (n : Nat) : Bool := tiles.contains (n / 8192)
  let lane (q : Lane) : Lane := let q := s.restLane kept q; { q with wait := q.wait.rebase base 0 }
  { ids := s.nextId,
    spad := rel k.spad,
    badSpad := (k.badSpad.filter fun b => decide (base ≤ b) && decide (b < base + size)).map fun b => b - base,
    hidden := rel k.hidden,
    acc := k.acc.filter fun e => inTile e.1,
    badAcc := k.badAcc.filter inTile,
    cbar := (takeRange k.cbar (16 * slot) 16).map fun e => (e.1 - 16 * slot, e.2),
    groups := xs.map fun x => { x with lanes := x.lanes.map lane },
    accesses := accs.map fun a => (a.rebase base 0, s.awaitsHandler a),
    ops := k.queue.filter fun o => xs.any fun x => x.uid == o.owner,
    reqs := reqs.map (EngReq.rebase base 0) }

/-- ACCMASK of a slot (R426). -/
def Core.accMask (k : Core) (slot : Nat) : Nat :=
  maskOf ([0, 1, 2, 3].filter fun t => k.accown.toNat.testBit (8 + t) && ownOf k.accown.toNat t == slot)

/-- The header and body of a save area. -/
def State.ctxArea (s : State) (core slot flushed : Nat) : List Nat :=
  let k := s.core core
  let body := (s.ctxImage core slot).bytes
  let h : CtxHeader :=
    { magic := 0x56534331, version := 1, slot := slot, groups := (k.slotGroups slot).length, bytes := 64 + body.length,
      spsize := k.partSize slot / 4096, accmask := k.accMask slot, flushed := flushed, core := core,
      check := xorWords (body.length / 4) body, clock := s.clk }
  (List.range 64).map (fun i => h.image / 256 ^ i % 256) ++ body

/-- The name by which a saved group's queue entries and locks are known (R330): no resident GROUPID. -/
def awayGid (gid uid : Nat) : Nat := gid + 32 * (uid + 1)

/-- The saved groups of a slot leave their core (R425): granules, GROUPIDs and places are free; permit-queue entries stay, under a
name of the saved group's own. -/
def State.depart (s : State) (core slot : Nat) : State :=
  let xs := (s.core core).slotGroups slot
  let own (a : Access) : Option Group := if a.core = core then xs.find? fun x => x.gid == a.gid else none
  let stays (a : Access) : Bool := match a.kind with | .pacq => a.queued || a.stage == .replying | _ => false
  let accs := s.accesses.filterMap fun a => match own a with
    | some x => if stays a then some { a with gid := awayGid x.gid x.uid } else none
    | none => some a
  let locks := xs.flatMap fun x => (List.range 32).flatMap fun l => (x.lane l).tx.locks.map fun y => (x.uid, y)
  let waits (w : Nat × Nat × Nat × Nat) : Bool := w.2.1 == core && xs.any fun x => x.gid == w.2.2.1
  let s := { s with accesses := accs, awayLocks := s.awayLocks ++ locks }
  let s := s.onCluster (txCluster core) fun q => { q with fallbackWait := q.fallbackWait.filter fun w => !waits w }
  let s := s.onDie (dieOf core) fun d =>
    { d with faults := d.faults.map (fun r => if r.core = core ∧ xs.any (fun x => x.gid == r.gid) then { r with setLanes := 0 } else r),
             engine := d.engine.filter fun r => !(r.core == core && xs.any fun x => x.uid == r.uid) }
  let s := s.onCore core fun k =>
    { k with queue := k.queue.filter (fun o => !(xs.any fun x => x.uid == o.owner)), groups := k.groups.filter fun e => e.2.slot != slot,
             cbar := k.cbar.filter fun e => e.1 / 16 != slot }
  s.onCore core fun k => xs.foldl (fun k x => k.giveUpBank x.uid) k

/-! ### CTXSV (R425) -/

/-- The code with which CTXSV refuses its operands, if it does: SLOT, ALIGN. -/
def State.ctxsvCode (s : State) (c : Ctx) (a b : Nat) : Option Nat :=
  if b / 4 ≠ 0 ∨ b % 4 = c.slot then some 1
  else if a % 4096 ≠ 0 ∨ isHost (a % 2 ^ 52) ∨ s.isOnChip (a % 2 ^ 52) ∨ s.isMgmt (a % 2 ^ 52) ∨ !s.backed (a % 2 ^ 52) then some 2
  else none

/-- The issue of a slot's groups stops, and boarded groups leave their rides (R425). -/
def State.beginSave (s : State) (c : Ctx) (slot : Nat) : State :=
  let v : Saving := ⟨slot, c.gid, (s.grp c).uid, c.low, c.pc⟩
  let s := s.onCore c.core fun k => { k with saving := some v }
  ((s.core c.core).slotGroups slot).foldl (fun s x => s.leaveAll c.core x.gid) s

/-- The slot is saved at a physical address: its bytes are written and its groups go; the state, BYTES and the clock of the last
write. -/
def State.saveSlot (s : State) (c : Ctx) (slot a : Nat) : Except AgentFail (State × Nat × Nat) :=
  let out := (s.core c.core).flushed slot
  let s := out.foldl (fun s x => s.flush c.core x) s
  let area := s.ctxArea c.core slot out.length
  let g := { s.agentFor c.core c.gid c.low c.slot c.mode with phys := true, map := true }
  match s.agentPut g ((s.grp c).maxC c.act) a area.length (bytesNat area) with
  | .error f => .error f
  | .ok (s, v) => .ok ((s.depart c.core slot).onCore c.core fun k => { k with saving := none }, area.length, v)

/-- CTXSV (R425): its set stalls until the slot is at rest. -/
def execCtxsv (f : F3) (s : State) : Host.Outcome State Fault Refusal :=
  s.issueWith [] [dst32 f.d, src64 f.a, src64 f.b] hypOnly fun s c =>
    let x := s.grp c
    let a := x.rd64 f.a c.low
    let b := x.rd64 f.b c.low
    let put (t : State) (v : Nat) : State := (t.advance c).onGrp c fun y => y.wr c f.d false fun _ => v
    if c.act.isEmpty then .done (s.advance c)
    else match s.ctxsvCode c a b with
      | some n => .done (put s n)
      | none =>
        let mine := (s.core c.core).saving == some ⟨b % 4, c.gid, x.uid, c.low, c.pc⟩
        let other := match (s.core c.core).saving with | some v => (s.core c.core).saves v.slot | none => false
        if !mine && other then .stall
        else
          let t := if mine then s else s.beginSave c (b % 4)
          if !t.slotQuiet c.core (b % 4) then (if mine then .stall else .stallAfter t)
          else match t.saveSlot c (b % 4) a with
            | .error .busy => if mine then .stall else .stallAfter t
            | .error _ => .done (put (t.onCore c.core fun k => { k with saving := none }) 2)
            | .ok (u, n, v) => .done ((put u n).onGrp c fun y => y.onLanes c.act fun _ k => k.acquire v)

/-! ### CTXLD (R426) -/

/-- The names in an operation changed. -/
def MatOp.rename (f : Nat → Nat) (o : MatOp) : MatOp := { o with id := f o.id, owner := f o.owner }

/-- The names in a lane changed; a permit's queue entry keeps its own. -/
def Lane.rename (f : Nat → Nat) (k : Lane) : Lane :=
  { k with traps := k.traps.map (fun e => { e with access := e.access.map f }), pend := k.pend.map (fun e => { e with access := e.access.map f }),
           wait := match k.wait with | .reply id => .reply (f id) | w => w }

/-- The names in a group changed. -/
def Group.rename (f : Nat → Nat) (x : Group) : Group :=
  { x with uid := f x.uid, parent := x.parent.map f, step := x.step.map (MatOp.rename f),
           masks := x.masks.map (fun m => { m with pending := m.pending.map (MatOp.rename f) }), lanes := x.lanes.map (Lane.rename f) }

/-- What CTXLD has read: the state, the header, the image, the clock after the reads and the highest W they read. -/
structure CtxRead where
  s : State
  h : CtxHeader
  i : CtxImage
  c : Nat
  w : Option Nat

/-- The area at a physical address (R426): nothing where its header or body does not pass. -/
def State.ctxRead (s : State) (c : Ctx) (a : Nat) : Except AgentFail (Option CtxRead) :=
  let g := { s.agentFor c.core c.gid c.low c.slot c.mode with phys := true, map := true }
  match s.agentGet g ((s.grp c).maxC c.act) a 64 with
  | .error f => .error f
  | .ok o =>
    let h := CtxHeader.ofImage o.value
    if o.bad ≠ 0 ∨ !CtxHeader.ok o.value then .ok none
    else match o.s.agentGet g o.c (a + 64) (h.bytes - 64) with
      | .error f => .error f
      | .ok q =>
        let body := (List.range (h.bytes - 64)).map fun i => q.value / 256 ^ i % 256
        if q.bad ≠ 0 ∨ xorWords (body.length / 4) body ≠ h.check then .ok none
        else .ok ((CtxImage.ofBytes c.core body).bind fun i =>
          if i.groups.length = h.groups ∧ i.groups.all (fun x => decide (x.gid < 24)) then some ⟨q.s, h, i, q.c, stampWith o.w q.w⟩ else none)

/-- Whether an image fits now (R426): granules, the 24-group limit and GMAX, its GROUPIDs, the array queue. -/
def Core.fits (k : Core) (slot : Nat) (i : CtxImage) : Bool :=
  decide ((i.groups.foldl (fun n x => n + x.window.length) 0) ≤ k.freeGranules.length) &&
  decide (k.groups.length + i.groups.length ≤ 24) && decide (i.groups.length ≤ k.gmax slot) &&
  (i.groups.all fun x => (k.groups.find? x.gid).isNone) && decide (k.queue.length + i.ops.length ≤ 8)

/-- A saved group becomes resident again: its pipeline, its granules, its freezes (R75, R429). -/
def State.enterGroup (s : State) (core slot base : Nat) (x : Group) : State :=
  let k := s.core core
  let d := s.die (dieOf core)
  let lane (q : Lane) : Lane := { q with wait := q.wait.rebase 0 base }
  let x := { x with slot := slot, pipe := k.freePipe, window := k.freeGranules.take x.window.length, lanes := x.lanes.map lane,
                    frozenSlot := (k.frozen.find? slot).map fun _ => s.clk }
  let region := (d.op? x.opid).elim none fun o => if o.st = 1 then d.frozen.find? o.region else none
  s.onCore core fun k => { k with groups := k.groups.put x.gid { x with frozenRegion := if x.tileh = 0 then none else region.map fun _ => s.clk } }

/-- A forward whose lane's group has a new name. -/
def Forward.rename (old new core : Nat) (f : Forward) : Forward := if f.uid = old then { f with uid := new, core := core } else f

/-- The forwards of a group that merges and packets hold have its new name (R226). -/
def State.renameForwards (s : State) (old new core : Nat) : State :=
  let held (h : Held) : Held := { h with fwd := h.fwd.rename old new core }
  let packet (p : Packet) : Packet := { p with fwd := p.fwd.map fun f => f.rename old new core }
  let die (d : Die) : Die := { d with merge := d.merge.map held }
  { s with dies := s.dies.map fun d => (d.1, die d.2), packets := s.packets.map packet }

/-- The fallback permits that a group's lanes hold name their present fids (R294, R320). -/
def State.renameHolders (s : State) (core gid : Nat) : State :=
  (List.range 32).foldl (fun s l =>
    let t := ((s.group core gid).lane l).tx
    match t.permit with
    | some cl => if t.active && t.irrev then s.onCluster cl fun q => { q with fallback := some (s.fid core gid l) } else s
    | none => s) s

/-- Names of a saved group where it has left them: barrier arrivals, merges, forwards, permit queues, locks (R92, R226, R330). -/
def State.reclaim (s : State) (core old new gid : Nat) : State :=
  let arr (b : Barrier) : Barrier := { b with arrived := b.arrived.map fun u => if u = old then new else u }
  let cred (a : CredArrival) : CredArrival := if a.uid = old then { a with uid := new, core := core, gid := gid } else a
  let unit (u : CredUnit) : CredUnit := ⟨u.now.map cred, u.held.map cred⟩
  let acc (a : Access) : Access := if a.gid = awayGid gid old then { a with gid := gid, core := core } else a
  let s := { s with accesses := s.accesses.map acc, awayLocks := s.awayLocks.filter fun e => e.1 != old }
  let s := (s.renameForwards old new core).renameHolders core gid
  match clusterOf core with
  | some cl => s.onCluster cl fun q =>
      { q with kbar := q.kbar.map (fun e => (e.1, arr e.2)), creds := q.creds.map fun e => (e.1, unit e.2) }
  | none => s

/-- What CTXLD restores into a slot that holds no group (R426): of its partition and tiles, those that were saved. -/
def State.loadSlot (s : State) (core slot : Nat) (h : CtxHeader) (i : CtxImage) : State :=
  let f (n : Nat) : Nat := s.nextId + n
  let k := s.core core
  let base := k.partBase slot
  let size := 4096 * h.spsize
  let place {w : Nat} (m old : Map (BitVec w)) : Map (BitVec w) :=
    (m.filter fun e => decide (e.1 < size)).foldl (fun r e => sput r (base + e.1) e.2) (dropRange old base size)
  let inTile (n : Nat) : Bool := h.accmask.testBit (n / 8192)
  let bar (b : Barrier) : Barrier := { b with arrived := b.arrived.map f }
  let k := { k with
    spad := place i.spad k.spad,
    hidden := place i.hidden k.hidden,
    badSpad := (k.badSpad.filter fun b => decide (b < base) || decide (base + size ≤ b)) ++ i.badSpad.map fun b => base + b,
    acc := (i.acc.filter fun e => inTile e.1).foldl (fun r e => sput r e.1 e.2) (k.acc.filter fun e => !inTile e.1),
    badAcc := (k.badAcc.filter fun n => !inTile n) ++ i.badAcc.filter inTile,
    cbar := i.cbar.foldl (fun m e => m.put (16 * slot + e.1 % 16) (bar e.2)) (k.cbar.filter fun e => e.1 / 16 != slot),
    queue := i.ops.map (fun o => { o.rename f with slot := slot }) ++ k.queue }
  let s := { s.setCore core k with nextId := s.nextId + i.ids }
  let kind (a : AccKind) : AccKind := match a with | .commit q m b => .commit (f q) m b | _ => a
  let access (e : Access × Bool) : Access :=
    let a := e.1.rebase 0 base
    { a with id := f a.id, kind := kind a.kind, slot := slot, late := true }
  let reqs := i.reqs.map fun r => { r.rebase 0 base with id := f r.id, uid := f r.uid, slot := slot, core := core }
  let s := { s with accesses := s.accesses ++ i.accesses.map access }
  let s := s.onDie (dieOf core) fun d => { d with engine := d.engine ++ reqs }
  i.groups.foldl (fun s x => (s.enterGroup core slot base (x.rename f)).reclaim core x.uid (f x.uid) x.gid) s

/-- The code with which CTXLD refuses, if it does (R426): SLOT, ALIGN, HEADER, SPMAP, ACC. -/
def State.ctxldCode (s : State) (c : Ctx) (a b : Nat) (area : Option CtxRead) : Option Nat :=
  let k := s.core c.core
  let slot := b % 4
  if slot = c.slot ∨ 0 < k.inSlot slot then some 1
  else if a % 4096 ≠ 0 then some 2
  else match area with
    | none => some 3
    | some r =>
      if k.partSize slot / 4096 < r.h.spsize then some 4
      else if r.h.accmask &&& k.accMask slot != r.h.accmask then some 5 else none

/-- CTXLD (R426): its set stalls while its reads must wait, and until the image fits. -/
def execCtxld (f : F3) (s : State) : Host.Outcome State Fault Refusal :=
  s.issueWith [] [dst32 f.d, src64 f.a, src64 f.b] hypOnly fun s c =>
    let x := s.grp c
    let a := x.rd64 f.a c.low
    let b := x.rd64 f.b c.low
    let put (t : State) (v : Nat) : State := (t.advance c).onGrp c fun y => y.wr c f.d false fun _ => v
    if c.act.isEmpty then .done (s.advance c)
    else
      let read := s.ctxRead c a
      let area := match read with | .ok r => r | .error _ => none
      match s.ctxldCode c a b area, area with
      | some n, _ => (match read with | .error .busy => if n = 3 then .stall else .done (put s n) | _ => .done (put s n))
      | none, none => .done (put s 3)
      | none, some r =>
        if !(s.core c.core).fits (b % 4) r.i then .stall
        else .done ((put (r.s.loadSlot c.core (b % 4) r.h r.i) 0).onGrp c fun y =>
          y.onLanes c.act fun _ k => k.acquire (r.w.elim r.c fun w => stampMax r.c w))

end Sys2Proof.Machine
end

