-- ==== Sys2Proof/Machine/Host.lean ====
section
/-!
DEFINITION. What the outside world does to the package (spec/18): host accesses through BAR0 and BAR2, peers, PSL ports, power states,
start-up (R435 to R449). An event's operands stand in `turn`: `addr` an offset or address, `size` a number of bytes, `value` and
`value2` data, `unit` a port, a power state or a fibre, `item` a clock.
-/
namespace Sys2Proof.Machine

/-! ### The management region (R435, R439, R445) -/

/-- PKGCFG_WRITE (R435). -/
def execPkgcfgWrite (s : State) : Host.Outcome State Fault Refusal := happened (s.woken.writePkgcfg (s.turn.value % 2 ^ 64))
/-- LATTOL_WRITE (R446). -/
def execLattolWrite (s : State) : Host.Outcome State Fault Refusal := happened (s.woken.writeLattol (s.turn.value % 2 ^ 64))
/-- MSIXDB_WRITE (R439). -/
def execMsixdbWrite (s : State) : Host.Outcome State Fault Refusal := happened (s.woken.writeMsixdb (s.turn.value % 2 ^ 64))
/-- A host request completed. -/
def State.complete (s : State) (ok : Bool) (v : Nat) : State := { s with outbox := some ⟨ok, v, false⟩ }

/-- MGMT_REG_WRITE (R435): the host's access to BAR0, a write, or with `flag` a read; one of another size or alignment is dropped, or
completed with Unsupported Request. -/
def execMgmtRegWrite (s : State) : Host.Outcome State Fault Refusal :=
  let ok := decide (s.turn.size = 8 ∧ s.turn.addr % 8 = 0 ∧ s.turn.addr < 2 ^ 24)
  let t := s.woken
  happened (if s.turn.flag then (if ok then t.complete true (t.mgmtRead s.turn.addr) else t.complete false 0)
            else if ok then t.mgmtWrite s.turn.addr (s.turn.value % 2 ^ 64) else t)

/-! ### BAR2 (R437, R438) -/

/-- The fibre hash of a portal's own accesses (R437). -/
def portalHash : Nat := 0xFFFF

/-- The unit that works for the host port or for a peer at an address of this package. -/
def portAgent (pa hash : Nat) : Agent := { unitAgent (dieOfPa pa) 0 0 with mode := .h, phys := true, hash := some hash, port := true }

/-- The physical address of n bytes of the BAR2 window, if they have backing in domain memory: HBM of a package (R437). -/
def State.windowAt (s : State) (offset n : Nat) : Option Nat :=
  let pa := bits s.hwin.toNat 51 36 * 2 ^ 36 + offset
  if offset + n ≤ 2 ^ 36 ∧ n ≠ 0 ∧ !isHost pa ∧ !s.isMgmt pa ∧ !s.isOnChip pa ∧ s.backed pa ∧ s.backed (pa + n - 1) then some pa else none

/-- A read completed with its data; uncorrectable ones are delivered marked, and are free (R444, log 35). -/
def State.answerPort (s : State) (o : AgentOut) (n : Nat) : State :=
  if o.bad ≠ 0 then { o.s.draw with outbox := some ⟨true, Config.badData s.free n % 256 ^ n, true⟩ } else o.s.complete true o.value

/-- HOST_BAR2_READ (R437): completed with data, or with Unsupported Request. -/
def execHostBar2Read (s : State) : Host.Outcome State Fault Refusal :=
  let s := s.woken
  match s.windowAt s.turn.addr s.turn.size with
  | none => happened (s.complete false 0)
  | some pa =>
    match s.agentGet (portAgent pa portalHash) (s.clockAt pa s.turn.size) pa s.turn.size with
    | .ok o => happened (s.answerPort o s.turn.size)
    | .error _ => happened (s.complete false 0)

/-- HOST_BAR2_WRITE (R437): a posted write without backing is dropped. -/
def execHostBar2Write (s : State) : Host.Outcome State Fault Refusal :=
  let s := s.woken
  match s.windowAt s.turn.addr s.turn.size with
  | none => .next s
  | some pa =>
    match s.agentPut (portAgent pa portalHash) (s.clockAt pa s.turn.size) pa s.turn.size s.turn.value with
    | .ok (t, _) => happened t
    | .error _ => .next s

/-- A read-modify-write by the owner of a physical range for a port's request, with a clock: the bytes read before it. -/
def State.portRmw (s : State) (pa n hash clock : Nat) (op : Rmw) (c e : Nat) : State × Nat :=
  let old := s.pread pa n
  let st := stampNext ((sectorsOf pa n).foldl (fun m x => stampMax m (s.metaOf x).clock) clock)
  let mask (x : Nat) : Nat := maskOf ((List.range 32).filter fun i => decide (pa ≤ 32 * x + i) && decide (32 * x + i < pa + n))
  let t := s.pwrite pa n (op.apply (8 * n) old c e) (2 ^ n - 1)
  ((t.record pa n hash st true true mask).touchLine pa 0 (lineSectors pa n) (lineSectors pa n) false, old)

/-- An atomic of a port's request with its completion: uncorrectable bytes are left as they are, and delivered marked (R444). -/
def State.portAtomic (s : State) (pa n hash clock : Nat) (op : Rmw) (c e : Nat) : State :=
  if s.poisoned pa n then { s.draw with outbox := some ⟨true, Config.badData s.free n % 256 ^ n, true⟩ }
  else let r := s.portRmw pa n hash clock op c e; r.1.complete true r.2

/-- The operation of a host AtomicOp (R438). -/
def hostRmw : HostOp → Rmw
  | .fetchAdd => .add
  | .swap => .exch
  | .cas => .cas

/-- Whether the completer takes an AtomicOp of n bytes (R438). -/
def hostTakes (op : HostOp) (n : Nat) : Bool := n == 4 || n == 8 || (n == 16 && op == .cas)

/-- HOST_ATOMICOP (R438): `value` is the operand, `value2` CAS's comparison value; `flag` says that it goes to BAR0, which takes none. -/
def execHostAtomicop (s : State) : Host.Outcome State Fault Refusal :=
  let n := s.turn.size
  let s := s.woken
  match (if !s.turn.flag ∧ hostTakes s.turn.hostOp n ∧ s.turn.addr % n = 0 then s.windowAt s.turn.addr n else none) with
  | none => happened (s.complete false 0)
  | some pa => happened (s.portAtomic pa n portalHash (s.clockAt pa n) (hostRmw s.turn.hostOp) s.turn.value s.turn.value2)

/-! ### Peers (R13, R441, R442) -/

/-- Whether a peer's request of n bytes is accepted (R262, R441): the ports are enabled and up, and it names backed HBM of this package. -/
def State.peerMay (s : State) (pa n : Nat) : Bool :=
  (s.portFor pa).isSome && n != 0 && s.isHbm pa && s.isHbm (pa + n - 1) && s.backed pa && s.backed (pa + n - 1)

/-- A permit operation of another package's fibre at its owner here (R318, R329). DESIGN CHOICE: the completion carries 3 where it reports the
fibre queued, 4 where the unit's waiter entries are all in use and the request is to be tried again; PREL's fails where R329 raises the
trap PERMIT (log 82). -/
def State.peerPermit (s : State) (pa fid clock : Nat) (op : PeerOp) : State :=
  let p := s.permitAt pa
  let leave (q : Permit) (r : Nat) : State := ((s.portRmw pa 8 (hashOf fid) clock .exch q.word 0).1.setPermit pa q).complete true r
  if s.poisoned pa 8 then { s.draw with outbox := some ⟨true, Config.badData s.free 8 % 256 ^ 8, true⟩ }
  else if op = .prel then
    if !p.held || p.holder != fid then s.complete false 0
    else match p.waiters with
      | [] => leave ⟨false, 0, []⟩ 0
      | m :: ms => let t := leave ⟨true, s.waiterFid m, ms⟩ 0; t.handOver m (t.metaOf (pa / 32)).w
  else if p.held && p.holder == fid then leave p 1
  else if !p.held then leave ⟨true, fid, p.waiters⟩ 0
  else if op = .ptry then leave p 2
  else if 256 ≤ (s.cluster (s.unitOf pa)).waiters then s.complete true 4
  else leave { p with waiters := p.waiters ++ [.peer fid] } 3

/-- A commit of another package's fibre over sectors owned here (R318, R335), in one step as a lane's (log 14): it fails where one is
locked or has changed; else they are written and stamped, and the completion carries the stamp and, above it, the highest W of those read. -/
def State.peerCommit (s : State) (fid clock : Nat) (reads writes : List LogSector) : State :=
  let xs := (reads ++ writes).map fun e => e.pa / 32
  let none_ := 1024  -- no core of this package
  if xs.any (s.lockedByOther none_ 0 0) || reads.any (fun e => s.pread e.pa 32 != e.bytes) then s.complete false 0
  else
    let st := stampNext (s.clockOver clock xs)
    let w := reads.foldl (fun w e => stampMax w (s.metaOf (e.pa / 32)).w) 0
    let t := writes.foldl (fun s e => s.applySector (hashOf fid) st e) s
    let t := reads.foldl (fun s e => s.record e.pa 32 (hashOf fid) st true false fun _ => 2 ^ 32 - 1) t
    t.complete true (st + 2 ^ 40 * w)

/-- PEER_REQUEST (R441): performed at its owner with the fibre and clock that it carries (R295). -/
def execPeerRequest (s : State) : Host.Outcome State Fault Refusal :=
  let pa := s.turn.addr
  let n := s.turn.size
  let hash := hashOf s.turn.unit
  let clock := s.turn.item % 2 ^ 40
  let s := s.woken
  if !(if s.turn.peerOp = .commit then (s.turn.reads ++ s.turn.writes).all fun e => e.pa % 32 == 0 && s.peerMay e.pa 32
       else s.peerMay pa n && ([.read, .write].contains s.turn.peerOp || pa % n == 0)) then happened (s.complete false 0)
  else match s.turn.peerOp with
    | .read =>
      match s.agentGet (portAgent pa hash) clock pa n with
      | .ok o => happened (s.answerPort o n)
      | .error _ => happened (s.complete false 0)
    | .write =>
      match s.agentPut (portAgent pa hash) clock pa n s.turn.value with
      | .ok (t, _) => happened (t.complete true 0)
      | .error _ => happened (s.complete false 0)
    | .atomic op => happened (s.portAtomic pa n hash clock (globalRmw op.toNat) s.turn.value s.turn.value2)
    | .commit => happened (s.peerCommit s.turn.unit clock s.turn.reads s.turn.writes)
    | op => if n = 8 then happened (s.peerPermit pa s.turn.unit clock op) else happened (s.complete false 0)

/-- What is on its way to another package when no port is left translates anew, and is refused with ADDR (R275, R442). -/
def State.noPort (s : State) : State :=
  let back (a : Access) : Access :=
    if (s.isPeer a.pa && !a.queued && (a.stage == .ready || a.stage == .granted)) then { a with stage := .issued } else a
  if s.somePort then s else { s with accesses := s.accesses.map back }

/-- PSL_PORT_DOWN (R442): UP clears; requests in flight go on by the ports that remain (State.portFor). -/
def execPslPortDown (s : State) : Host.Outcome State Fault Refusal :=
  if s.pslstat.toNat.testBit s.turn.unit ∧ s.turn.unit < 18 then
    happened { s with pslstat := BitVec.ofNat 64 (s.pslstat.toNat - 2 ^ s.turn.unit) }.noPort
  else .next s

/-! ### Power (R446, R447) -/

/-- POWER_STATE_CHANGE (R446): into the deepest state whose conditions hold. -/
def execPowerStateChange (s : State) : Host.Outcome State Fault Refusal :=
  if s.turn.unit = s.deepest ∧ s.turn.unit ≠ s.power then happened (s.enterPower s.turn.unit) else .next s

/-- Whether some WAITV's word meets its condition, among host words or the others (R292, R447). -/
def State.waitvDue (s : State) (host : Bool) : Bool :=
  s.accesses.any fun a => match a.kind with
    | .waitv cond => a.stage == .ready && isHost a.pa == host && waitvMet cond (s.pread a.pa a.size) a.data
    | _ => false

/-- Whether a NAP or a WAITV time-out has ended (R447). -/
def State.timeOutDue (s : State) : Bool :=
  (s.accesses.any fun a => match a.kind with | .waitv _ => a.timeout.elim false fun t => decide (t ≤ s.clk) | _ => false) ||
  s.cores.any fun k => k.2.groups.any fun g => g.2.live.any fun l => match (g.2.lane l).wait with | .nap u => decide (u ≤ s.clk) | _ => false

/-- WAKE_EVENT (R447): the package wakes. -/
def execWakeEvent (s : State) : Host.Outcome State Fault Refusal :=
  let due : Bool := match s.turn.wake with
    | .inbound => true
    | .lattol => true
    | .waitvWrite => s.waitvDue false
    | .hostPoll => s.waitvDue true
    | .timeOut => s.timeOutDue
  if due ∧ s.power ≠ 0 then happened (s.enterPower 0) else .next s

/-- Whether a pass of some die has a rider (R446). -/
def State.ridden (s : State) : Bool := s.dies.any fun d => d.2.ridge.passes.any fun p => !p.riders.isEmpty

/-- What holds after every step from a state (R446): a power state whose condition has ceased to hold is left at once, and the clk since which
no die has had a rider is kept. -/
def State.watchPower (before s : State) : State :=
  let s := if before.ridden || s.ridden then { s with noRider := s.clk } else s
  if s.power = 0 then s else if s.deepest < s.power then s.enterPower s.deepest else s

/-! ### Start-up (R448, R449) -/

/-- READY (R449). -/
def State.isReady (s : State) : Bool := bit s.bootstat.toNat 0
/-- RECOV (R449). -/
def State.inRecovery (s : State) : Bool := bit s.bootstat.toNat 1

/-- The clusters of the dies that fail to come up (R448). Die 0 runs start-up. -/
def diesLost (b : BootOutcome) : Nat := maskOf ((List.range 40).filter fun c => c / 10 != 0 && b.diesFailed.getLsbD (c / 10))

/-- BOOTSTAT's parts written. -/
def State.setBoot (s : State) (starts lastFail : Nat) (recov ready : Bool) : State :=
  { s with bootstat := BitVec.ofNat 64 (starts % 2 ^ 16 * 2 ^ 48 + lastFail * 2 ^ 40 + recov.toNat * 2 + ready.toNat) }

/-- How a start goes on after a step (R448). -/
inductive BootEnd
  | on | stopped | recovery
deriving DecidableEq, Repr

/-- What a failing step brings about (R448): steps 0 and 6, and a second failure in a row, end in recovery; steps 3 and 5 go on. -/
def bootFail (j : Journal) (k : Nat) : BootEnd :=
  if k = 3 ∨ k = 5 then .on else if k = 0 ∨ k = 6 ∨ j.failed.contains k then .recovery else .stopped

/-- The effect of a step that ends (R448). -/
def State.bootStep (s : State) (b : BootOutcome) (k : Nat) : State :=
  match k with
  | 1 => { s with removed := BitVec.ofNat 64 (diesLost b) }
  | 3 => { s with removed := s.removed ||| BitVec.ofNat 64 b.clustersFailed.toNat }
  | 4 => { s with hostAtomics := b.atomicSizes }
  | 5 => { s with pslstat := BitVec.ofNat 64 b.portsUp.toNat }
  | _ => s

/-- The steps of a start from one on, with the journal they write (R448). -/
def State.bootSteps (s : State) (b : BootOutcome) : List Nat → State × BootEnd
  | [] => (s, .on)
  | k :: r =>
    let j := s.journal
    if b.stepsFailed.getLsbD k then
      let s := { s with journal := { j with open_ := some k, failed := if j.failed.contains k then j.failed else j.failed ++ [k] } }
      let t := s.bootStep b k
      match bootFail j k with
      | .on => t.bootSteps b r
      | e => (if k = 1 then t else s, e)
    else
      ({ s with journal := { j with failed := j.failed.filter fun q => q != k } }.bootStep b k).bootSteps b r

/-- A start from die 0 (R448, R449): the journal names the step that failed at the previous one, and a start that authenticates a reloaded
image clears it. -/
def State.start (s : State) (b : BootOutcome) : State :=
  let j := if s.journal.fresh && !b.stepsFailed.getLsbD 0 then ⟨none, [], 0, false⟩ else s.journal
  let last := j.open_.getD 0xFF
  let n := j.starts + 1
  let r := { s with journal := { j with open_ := none, starts := n } }.bootSteps b [0, 1, 2, 3, 4, 5, 6]
  match r.2 with
  | .on => r.1.setBoot n last false true
  | .stopped => r.1.setBoot n last false false
  | .recovery => r.1.setBoot n last true false

/-- STARTUP (R448): where no start has ended yet. -/
def execStartup (s : State) : Host.Outcome State Fault Refusal :=
  if s.isReady ∨ s.inRecovery then .next s else happened (s.start s.turn.boot)

/-- The function reset (R449): registers and on-die state as after reset; memory, the journal, CLOCK and the model's own fields go on. -/
def State.functionReset (s : State) : State :=
  { State.reset with clk := s.clk, free := s.free, nextId := s.nextId, sched := s.sched, turn := s.turn, mem := s.mem, poison := s.poison,
                     journal := s.journal, noRider := s.clk }

/-- FIRMWARE_RELOAD (R449): in recovery, the host writes an image and resets the function; the start that follows authenticates it, or fails
at step 0. -/
def execFirmwareReload (s : State) : Host.Outcome State Fault Refusal :=
  if !s.inRecovery then .next s else happened { s.functionReset with journal := { s.journal with fresh := true } }

/-- Whether an event may happen: in recovery only the host port and BAR0 run (R449). -/
def State.mayHappen (s : State) (e : Instr) : Bool :=
  !s.inRecovery ||
  match e with
  | .pkgcfgWrite => true
  | .lattolWrite => true
  | .msixdbWrite => true
  | .mgmtRegWrite => true
  | .hostBar2Read => true
  | .hostBar2Write => true
  | .hostAtomicop => true
  | .firmwareReload => true
  | _ => false

end Sys2Proof.Machine
end

