-- ==== Sys2Proof/Machine/Agenda.lean ====
section
/-!
DEFINITION. Who moves next where the schedule names nobody (log 1): all work that is under way, and every pipeline that has a set to
issue, take turns. What the outside world does stands only in a schedule.
-/
namespace Sys2Proof.Machine

/-- An event without further operands than its unit, item and sub. -/
def ev (e : Instr) (unit item sub : Nat) : Turn := ⟨1, e, { EventArgs.zero with unit := unit, item := item, sub := sub }⟩

/-- An event, if it is due. -/
def evIf (b : Bool) (e : Instr) (unit item sub : Nat) : List Turn := if b then [ev e unit item sub] else []

/-- The pipelines of a core that have a group which could issue. -/
def State.pipeTurns (s : State) (c : Nat) (k : Core) : List Turn :=
  [0, 1, 2, 3].flatMap fun p =>
    evIf (k.groups.any fun g => g.2.pipe == p && !(s.selectSet c g.2).isEmpty) .issueSelect c p 0

/-- Whether a WAITV is to be looked at: its word meets its condition, or its time is over (R292). -/
def State.waitvTurn (s : State) (a : Access) : Bool :=
  match a.kind with
  | .waitv cond => s.mayPerform a && (waitvMet cond (s.pread a.pa a.size) a.data || a.timeout.elim false fun t => decide (t ≤ s.clk))
  | _ => false

/-- What is due for a lane. -/
def State.laneTurns (s : State) (c g l : Nat) (k : Lane) : List Turn :=
  (match k.wait with
   | .nap u => evIf (decide (u ≤ s.clk)) .napExpiry c g l
   | .waitv id => evIf ((s.access? id).elim false s.waitvTurn) .waitvRecheck c g l
   | _ => []) ++
  evIf (k.budget == some 0) .budgetExpire c g l ++
  evIf (k.tx.active && !k.tx.irrev && k.tx.validating.isNone && decide (k.tx.since + 65536 ≤ s.clk)) .txValidateTimer c g l ++
  evIf (k.tx.active && !k.tx.irrev && k.tx.validating.isSome && !s.validateWaits c k.tx) .txValidateReply c g l

/-- A barrier whose phase is over while a lane waits in it (R92). -/
def State.barrierTurns (s : State) (c : Nat) (k : Core) (x : Group) (q : Lane) : List Turn :=
  match q.wait with
  | .cbar i _ p => evIf ((k.cbar.find? (16 * x.slot + i)).elim false fun b => b.phase != p) .barrierRelease c x.slot i
  | .kbar i _ p => cluster i p
  | .cred i _ p _ _ _ _ _ => cluster i p
  | _ => []
where
  cluster (i p : Nat) : List Turn :=
    match clusterOf c with
    | some cl =>
      if ((s.cluster cl).kbar.find? i).elim false fun b => b.phase != p then
        [⟨1, .barrierRelease, { EventArgs.zero with unit := cl, sub := i, flag := true }⟩]
      else []
    | none => []

/-- What is due for a group. -/
def State.groupTurns (s : State) (c : Nat) (k : Core) (x : Group) : List Turn :=
  (x.live.flatMap fun l => s.laneTurns c x.gid l (x.lane l) ++ s.barrierTurns c k x (x.lane l)) ++
  evIf (s.mayRetire c x) .groupRetire c x.gid 0 ++
  evIf (x.boardings.head?.elim false fun b => decide (b.due ≤ s.clk)) .boardTakeEffect c x.gid 0 ++
  evIf (x.ride.isSome && (x.frozenSlot.isSome || x.frozenRegion.isSome)) .frozenRideEject c x.gid 0

/-- What is due for a core. -/
def State.coreTurns (s : State) (c : Nat) (k : Core) : List Turn :=
  s.pipeTurns c k ++ (k.groups.flatMap fun g => s.groupTurns c k g.2) ++
  (k.fills.map fun q => ev .sfillComplete c q.id 0) ++ evIf k.spmapNew.isSome .spmapWrite c 0 0 ++ evIf k.accownNew.isSome .accownWrite c 0 0 ++
  ([0, 1].flatMap fun b => evIf ((k.bank b).st == 1) .bankReady c b 0) ++
  evIf (!k.landing.isEmpty && [0, 1].any fun b => (k.bank b).st == 0) .landingBufferMove c 0 0 ++
  evIf (!(k.queue.any fun o => o.running && !o.streamed) && (k.startable k.opStopped k.heldSteps k.queue).isSome) .arrayStart c 0 0 ++
  (k.queue.flatMap fun o =>
    if o.streamed then (if k.opStopped o then [] else [step .arrayOpComplete o.id]) else if o.running then [step .arrayStreamingEnd o.id] else [])
where
  step (e : Instr) (id : Nat) : Turn := ⟨1, e, { EventArgs.zero with unit := c, item := id, flag := true }⟩

/-- What is due for an access. -/
def State.accessTurns (s : State) (a : Access) : List Turn :=
  match a.stage with
  | .issued => evIf (s.mayTranslate a || s.takesLog a) .tlbWalkComplete a.core a.gid a.seqno
  | .replying => evIf (a.plainLane && decide (a.gid < 32)) .accessReply a.id 0 0
  | .parked => []
  | _ =>
    let perform : Bool := s.mayPerform a
    match a.kind with
    | .load _ => evIf perform .memAccessPerform a.id 0 0 ++ slot a perform
    | .store => evIf perform (if a.repl then .replMulticastStore else .memAccessPerform) a.id 0 0 ++ slot a perform
    | .acpIn _ _ => copy a
    | .acpOut _ => copy a
    | .waitv _ => slot a perform
    | .again _ => []
    | .commit _ _ _ => []
    | .pacq =>
      if a.queued then [] else if a.away then evIf (decide (a.since + 256 ≤ s.clk)) .pacqRetry a.id 0 0 else request a perform
    | _ => request a perform
where
  request (a : Access) (perform : Bool) : List Turn :=
      (if isHost a.pa then
         if perform then [⟨1, .portalCompletion, { EventArgs.zero with unit := a.id, flag := true }⟩] else []
       else evIf perform .svcRequestPerform a.id 0 0) ++ slot a perform
  slot (a : Access) (perform : Bool) : List Turn := evIf (a.stage == .ready && !perform && s.inOrder a) .memRequestSlotGrant a.id 0 0
  copy (a : Access) : List Turn :=
    evIf (!s.copyWaits a && ((a.size == 0 && a.stage == .ready) || s.mayPerform a)) .acpTransferComplete a.id 0 0 ++ slot a (s.mayPerform a)

/-- What is due for a cluster. -/
def Cluster.turns (q : Cluster) (c : Nat) : List Turn :=
  evIf (q.fallback.isNone && !q.fallbackWait.isEmpty) .fallbackPermitGrant c 0 0 ++
  q.creds.flatMap fun e =>
    let b := (q.kbar.find? e.1).getD Barrier.reset
    evIf (!e.2.now.isEmpty && b.arrived.length == b.expected) .credMerge c e.1 0

/-- What is due for a die's token work (spec/09). -/
def State.tokenTurns (s : State) (n : Nat) (d : Die) : List Turn :=
  (d.cols.flatMap fun c =>
    ((d.firstWaiting c.1).elim [] fun r => [ev .recordEnterCol n r 0]) ++ evIf (!(d.timedOut s.clk c.1).isEmpty) .colFireTimeout n c.1 0 ++
    evIf (!(d.candidates c.1).isEmpty) .colFireFill n c.1 0 ++
    evIf (c.2.tags.any fun t => t.any d.prefetches) .adapterPrefetchWarm n c.1 0) ++
  evIf (d.ops.any fun o => !o.2.ready.isEmpty) .dispatchPlace n 0 0 ++
  (d.merge.map fun h => ev .mergeRelease n h.rid 0) ++
  (d.ops.flatMap fun o => evIf (o.2.clone && o.2.hotSince.isSome) .balancerClone n o.1 0 ++ evIf o.2.cloneOf.isSome .balancerClose n o.1 0) ++
  evIf (bit d.stallcfg.toNat 0) .stallWatchHang n (s.clk % 16) 0

/-- What is due for a die's Ridgeline (spec/10). -/
def State.ridgeTurns (s : State) (n : Nat) (d : Die) : List Turn :=
  let g := d.ridge
  evIf (!g.paused && (g.cursor < g.rotation.length || !(d.rotationNow.isEmpty) || !g.syncs.isEmpty || !g.rotation.isEmpty || (s.pinToOpen n).isSome))
    .passOpen n 0 0 ++
  evIf (s.nextReader n).isSome .blockReadIssue n 0 0 ++
  g.passes.flatMap fun p =>
    evIf (!p.staged.isEmpty) .blockDeliver n p.id 0 ++
    ((p.staged.flatMap fun b => b.cores).map fun c => ev .rideEject n p.id c)

/-- What is due for a die. -/
def State.dieTurns (s : State) (n : Nat) (d : Die) : List Turn :=
  s.tokenTurns n d ++ s.ridgeTurns n d ++
  evIf (!d.faults.isEmpty && bit d.fqbase.toNat 0) .faultRecordWrite n 0 0 ++
  (if d.engine.any (fun r => !r.moving && s.pieceReady r) && decide (d.moving < 64) then
    [⟨1, .enginePiece, { EventArgs.zero with unit := n, flag := true }⟩] else []) ++
  (d.engine.flatMap fun r => evIf r.moving .enginePiece n r.id 0) ++
  (d.engine.flatMap fun r =>
    evIf r.spent .engineRequestComplete n r.id 0 ++
    evIf (r.done == r.bytes && !r.ended && !r.targets.isEmpty) .xmcastTargetArrive n r.id 0) ++
  (d.kvq.flatMap fun r => evIf (r.fault.isNone && decide (r.since < s.clk)) .kvRequestPerform n r.id 0) ++
  (d.gathers.flatMap fun r => evIf r.fault.isNone .gatherPortReply n r.id 0) ++
  (d.cows.map fun w => ev .kvCowCopyRead n w.id 0) ++
  (d.pubs.map fun p => ev .kstorePublish n p.id 0) ++ evIf (!d.scanq.isEmpty) .scanRequestPerform n 0 0

/-- Token packets under way (R227). -/
def State.packetTurns (s : State) : List Turn :=
  s.packets.flatMap fun p =>
    if p.accepted ∨ p.pkg ≠ s.pkg then [ev .tokenPacketAck p.srcDie p.id 0] else [ev .tokenPacketArrive p.die p.id 0]

/-- All that could happen next. -/
def State.agenda (s : State) : List Turn :=
  (s.cores.flatMap fun k => s.coreTurns k.1 k.2) ++ (s.accesses.flatMap s.accessTurns) ++ (s.clusters.flatMap fun q => q.2.turns q.1) ++
  (s.dies.flatMap fun d => s.dieTurns d.1 d.2) ++ s.packetTurns ++ (s.invals.map fun i => ev .tlbinvSwitch i.id 0 0) ++
  evIf (decide (s.power < s.deepest)) .powerStateChange s.deepest 0 0

/-- The turn taken where the schedule is empty: by the clock, one of the agenda after another; with nothing to do, time passes. -/
def State.defaultTurn (s : State) : Turn :=
  let ts := s.agenda
  (ts[s.clk % ts.length]?).getD (ev .settleSweep (s.clk % 4) 0 0)

end Sys2Proof.Machine
end

