-- ==== Sys2Proof/Machine/Int.lean ====
section
/-!
DEFINITION. The integer instructions (spec/05, R114 to R130).
-/
namespace Sys2Proof.Machine

/-- Element width, signedness and count of an integer type (R64, R115). -/
structure IntTy where
  w : Nat
  signed : Bool
  n : Nat
deriving DecidableEq, Repr

/-- TY of integer instructions (R64). -/
def intTy (ty : BitVec 3) : IntTy :=
  match ty.toNat with
  | 0 => ⟨32, true, 1⟩ | 1 => ⟨32, false, 1⟩ | 2 => ⟨64, true, 1⟩ | 3 => ⟨64, false, 1⟩
  | 4 => ⟨16, true, 2⟩ | 5 => ⟨16, false, 2⟩ | 6 => ⟨8, true, 4⟩ | _ => ⟨8, false, 4⟩

/-- Whether a type takes 64-bit operands. -/
def IntTy.wide (t : IntTy) : Bool := t.w == 64

/-- An integer operand: a constant is replicated into the elements of a packed type (R62). -/
def Group.rdInt (x : Group) (t : IntTy) (o : Operand) (l : Nat) : Nat :=
  if t.n = 1 then x.rd o l t.wide else x.rdPacked o l t.w

/-- An element's value under the type's signedness (R117). -/
def IntTy.val (t : IntTy) (v i : Nat) : Int :=
  let e := v / 2 ^ (t.w * i) % 2 ^ t.w
  if t.signed then sextInt e t.w else e

/-- The value range of a type. -/
def IntTy.lo (t : IntTy) : Int := if t.signed then -(2 ^ (t.w - 1) : Int) else 0
/-- The greatest value of a type. -/
def IntTy.hi (t : IntTy) : Int := if t.signed then 2 ^ (t.w - 1) - 1 else 2 ^ t.w - 1

/-- int_op of R117: one operation on each element, saturated if asked, narrowed to the element. -/
def intOp (t : IntTy) (sat : Bool) (op : Int → Int → Int → Int) (a b c : Nat) : Nat :=
  (List.range t.n).foldl (fun acc i =>
    let v := op (t.val a i) (t.val b i) (t.val c i)
    let v := if sat then min (max v t.lo) t.hi else v
    acc + wrap t.w v * 2 ^ (t.w * i)) 0

/-- An instruction that computes D from A, B and C by R117. -/
def State.intInstr (s : State) (f : F3) (nsrc : Nat) (sat : Bool) (op : IntTy → Int → Int → Int → Int) :
    Host.Outcome State Fault Refusal :=
  let t := intTy f.ty
  let srcs := [f.a, f.b, f.c].take nsrc
  s.issueGroup (dstW t.wide f.d :: srcs.map (srcW t.wide)) fun c x =>
    x.wr c f.d t.wide fun l => intOp t sat (op t) (x.rdInt t f.a l) (x.rdInt t f.b l) (x.rdInt t f.c l)

/-- IADD (R117). -/
def execIadd (f : F3) (s : State) : Host.Outcome State Fault Refusal :=
  s.intInstr f 2 (f.md.getLsbD 0) fun _ a b _ => a + b
/-- ISUB (R117). -/
def execIsub (f : F3) (s : State) : Host.Outcome State Fault Refusal :=
  s.intInstr f 2 (f.md.getLsbD 0) fun _ a b _ => a - b
/-- IMUL (R117). -/
def execImul (f : F3) (s : State) : Host.Outcome State Fault Refusal := s.intInstr f 2 false fun _ a b _ => a * b
/-- IMULH (R117): the high half of the exact product. -/
def execImulh (f : F3) (s : State) : Host.Outcome State Fault Refusal :=
  s.intInstr f 2 false fun t a b _ => (a * b) / (2 ^ t.w : Int)
/-- IMAD (R117). -/
def execImad (f : F3) (s : State) : Host.Outcome State Fault Refusal := s.intInstr f 3 false fun _ a b c => a * b + c
/-- IMIN (R117). -/
def execImin (f : F3) (s : State) : Host.Outcome State Fault Refusal := s.intInstr f 2 false fun _ a b _ => min a b
/-- IMAX (R117). -/
def execImax (f : F3) (s : State) : Host.Outcome State Fault Refusal := s.intInstr f 2 false fun _ a b _ => max a b
/-- IABS (R117). -/
def execIabs (f : F3) (s : State) : Host.Outcome State Fault Refusal :=
  s.intInstr f 1 (f.md.getLsbD 0) fun _ a _ _ => (a.natAbs : Int)

/-- MOV (R116): a read of a copy-tag register waits for its count (R113). -/
def execMov (f : F3) (s : State) : Host.Outcome State Fault Refusal :=
  let wide := f.fn == 1
  s.issueGroup [dstW wide f.d, srcW wide f.a] fun c x => x.wr c f.d wide fun l => x.rd f.a l wide
/-- MOVI (R116). -/
def execMovi (f : FI) (s : State) : Host.Outcome State Fault Refusal :=
  s.issueGroup [dst32 f.d] fun c x => x.wr c f.d false fun _ => f.imm.toNat
/-- MOVI.SX (R116). -/
def execMoviSx (f : FI) (s : State) : Host.Outcome State Fault Refusal :=
  s.issueGroup [dst64 f.d] fun c x => x.wr c f.d true fun _ => wrap 64 (sextInt f.imm.toNat 32)
/-- MOVI.HI (R116): the low word keeps its value. -/
def execMoviHi (f : FI) (s : State) : Host.Outcome State Fault Refusal :=
  s.issueGroup [dst64 f.d] fun c x => x.wr c f.d true fun l => x.rd64 f.d l % 2 ^ 32 + f.imm.toNat * 2 ^ 32
/-- SEL (R116). C is a 32-bit operand in the .64 form too (log 65). -/
def execSel (f : F3) (s : State) : Host.Outcome State Fault Refusal :=
  let wide := f.fn == 1
  s.issueGroup [dstW wide f.d, srcW wide f.a, srcW wide f.b, src32 f.c] fun c x =>
    x.wr c f.d wide fun l => if x.rd32 f.c l ≠ 0 then x.rd f.a l wide else x.rd f.b l wide
/-- LEA and LEA.32 (R116). -/
def execLea (f : FI) (s : State) : Host.Outcome State Fault Refusal :=
  let wide := f.fn == 0
  s.issueGroup [dstW wide f.d, srcW wide f.a] fun c x =>
    x.wr c f.d wide fun l =>
      if wide then wrap 64 (x.rd64 f.a l + sextInt f.imm.toNat 32) else (x.rd32 f.a l + f.imm.toNat) % 2 ^ 32

/-- The four forms of IADDC (R118): subtraction or addition, with or without the predicate as carry or borrow in. -/
def State.addCarry (s : State) (f : F3) (sub useIn : Bool) : Host.Outcome State Fault Refusal :=
  let t := intTy f.ty
  s.issueGroup [dstW t.wide f.d, srcW t.wide f.a, srcW t.wide f.b] fun c x =>
    let r (l : Nat) : Int :=
      let cin : Int := if useIn && (x.lane l).getPred f.pd then 1 else 0
      let a : Int := x.rd f.a l t.wide
      let b : Int := x.rd f.b l t.wide
      if sub then a - b - cin else a + b + cin
    let y := x.wr c f.d t.wide fun l => wrap t.w (r l)
    y.wrPred c f.pd fun l => if sub then decide (r l < 0) else decide (r l ≥ 2 ^ t.w)

/-- IADDC.ADD (R118). -/
def execIaddcAdd (f : F3) (s : State) : Host.Outcome State Fault Refusal := s.addCarry f false false
/-- IADDC.ADDC (R118). -/
def execIaddcAddc (f : F3) (s : State) : Host.Outcome State Fault Refusal := s.addCarry f false true
/-- IADDC.SUB (R118). -/
def execIaddcSub (f : F3) (s : State) : Host.Outcome State Fault Refusal := s.addCarry f true false
/-- IADDC.SUBB (R118). -/
def execIaddcSubb (f : F3) (s : State) : Host.Outcome State Fault Refusal := s.addCarry f true true

/-- How a comparison enters its predicate (R119): replaced, AND, OR. -/
def combinePred (fn : BitVec 8) (old k : Bool) : Bool :=
  match fn.toNat with
  | 0 => k
  | 1 => old && k
  | _ => old || k

/-- The conditions EQ, NE, LT, LE, GT, GE of R119 and R140. -/
def condHolds (cond : Nat) (o : Ordering) : Bool :=
  match cond with
  | 0 => o == .eq | 1 => o != .eq | 2 => o == .lt | 3 => o != .gt | 4 => o == .gt | _ => o != .lt

/-- ISETP (R119). -/
def execIsetp (f : F3) (s : State) : Host.Outcome State Fault Refusal :=
  let t := intTy f.ty
  s.issueGroup [srcW t.wide f.a, srcW t.wide f.b] fun c x =>
    x.wrPred c f.pd fun l =>
      combinePred f.fn ((x.lane l).getPred f.pd)
        (condHolds f.md.toNat (compare (t.val (x.rd f.a l t.wide) 0) (t.val (x.rd f.b l t.wide) 0)))
/-- PSET (R120): bits [14:0] of the predicate word; bit 15 stays 1. -/
def execPset (f : F3) (s : State) : Host.Outcome State Fault Refusal :=
  s.issueGroup [src32 f.a] fun c x => x.onLanes c.act fun l k => { k with pred := BitVec.ofNat 16 (x.rd32 f.a l) ||| 0x8000#16 }
/-- PSET.NZ (R120). -/
def execPsetNz (f : F3) (s : State) : Host.Outcome State Fault Refusal :=
  s.issueGroup [src32 f.a] fun c x => x.wrPred c f.pd fun l => x.rd32 f.a l != 0
/-- PMOV (R120). -/
def execPmov (f : F3) (s : State) : Host.Outcome State Fault Refusal :=
  s.issueGroup [dst32 f.d] fun c x => x.wr c f.d false fun l => ((x.lane l).pred ||| 0x8000#16).toNat

/-- An instruction that computes D from A and B by a function of the width (R121, R122). -/
def State.logic (s : State) (f : F3) (wideB : Bool) (op : Nat → Nat → Nat → Nat) : Host.Outcome State Fault Refusal :=
  let wide := f.fn == 1
  let w := if wide then 64 else 32
  s.issueGroup [dstW wide f.d, srcW wide f.a, srcW (wide && wideB) f.b] fun c x =>
    x.wr c f.d wide fun l => op w (x.rd f.a l wide) (x.rd f.b l (wide && wideB))

/-- AND (R121). -/
def execAnd (f : F3) (s : State) : Host.Outcome State Fault Refusal := s.logic f true fun _ a b => a &&& b
/-- OR (R121). -/
def execOr (f : F3) (s : State) : Host.Outcome State Fault Refusal := s.logic f true fun _ a b => a ||| b
/-- XOR (R121). -/
def execXor (f : F3) (s : State) : Host.Outcome State Fault Refusal := s.logic f true fun _ a b => a ^^^ b
/-- ANDN (R121). -/
def execAndn (f : F3) (s : State) : Host.Outcome State Fault Refusal := s.logic f true fun w a b => a &&& (2 ^ w - 1 - b)

/-- The result bits of BTAB (R121) from bit position i up: bit (a + 2b + 4c) of the table. -/
def btabBits (tab a b c : Nat) : Nat → Nat
  | 0 => 0
  | n + 1 =>
    (tab.testBit ((a.testBit 0).toNat + 2 * (b.testBit 0).toNat + 4 * (c.testBit 0).toNat)).toNat +
    2 * btabBits tab (a / 2) (b / 2) (c / 2) n

/-- BTAB (R121). -/
def execBtab (f : F3) (s : State) : Host.Outcome State Fault Refusal :=
  let wide := f.md.getLsbD 0
  s.issueGroup [dstW wide f.d, srcW wide f.a, srcW wide f.b, srcW wide f.c] fun c x =>
    x.wr c f.d wide fun l =>
      btabBits f.fn.toNat (x.rd f.a l wide) (x.rd f.b l wide) (x.rd f.c l wide) (if wide then 64 else 32)

/-- SHL (R122). The count is bits [7:0] of B. -/
def execShl (f : F3) (s : State) : Host.Outcome State Fault Refusal :=
  s.logic f false fun w a b => a * 2 ^ (b % 256) % 2 ^ w
/-- SHR (R122). -/
def execShr (f : F3) (s : State) : Host.Outcome State Fault Refusal := s.logic f false fun _ a b => a / 2 ^ (b % 256)
/-- SAR (R122). -/
def execSar (f : F3) (s : State) : Host.Outcome State Fault Refusal :=
  s.logic f false fun w a b => wrap w (sextInt a w / (2 ^ (b % 256) : Int))
/-- ROT (R122): left by n mod w. -/
def execRot (f : F3) (s : State) : Host.Outcome State Fault Refusal :=
  s.logic f false fun w a b => let n := b % 256 % w; a * 2 ^ n % 2 ^ w + a / 2 ^ (w - n)

/-- The effective length of a bit field (R123). -/
def fieldLen (b c : Nat) : Nat := min (c % 256) (32 - b % 256)

/-- BFE (R123). -/
def execBfe (f : F3) (s : State) : Host.Outcome State Fault Refusal :=
  s.issueGroup [dst32 f.d, src32 f.a, src32 f.b, src32 f.c] fun c x =>
    x.wr c f.d false fun l =>
      let p := x.rd32 f.b l % 256
      let m := fieldLen (x.rd32 f.b l) (x.rd32 f.c l)
      if m = 0 then 0
      else
        let v := x.rd32 f.a l / 2 ^ p % 2 ^ m
        if f.fn == 1 then wrap 32 (sextInt v m) else v
/-- Whether a field names an S register. -/
def Operand.isS : Operand → Bool
  | .s _ => true
  | _ => false

/-- BFI (R123): the other bits of D are kept; an empty field leaves D as it is, the high half of an S register too. -/
def execBfi (f : F3) (s : State) : Host.Outcome State Fault Refusal :=
  s.issueGroup [dst32 f.d, src32 f.a, src32 f.b, src32 f.c] fun c x =>
    x.wr c f.d (Operand.isS f.d) fun l =>
      let p := x.rd32 f.b l % 256
      let m := fieldLen (x.rd32 f.b l) (x.rd32 f.c l)
      if m = 0 then x.rd f.d l (Operand.isS f.d) else setBits (x.rd32 f.d l) (p + m - 1) p (x.rd32 f.a l)

/-- The number of one bits among the low n. -/
def onesIn (v : Nat) : Nat → Nat
  | 0 => 0
  | n + 1 => v % 2 + onesIn (v / 2) n

/-- The low n bits in reverse order. -/
def reverseBits (v : Nat) : Nat → Nat
  | 0 => 0
  | n + 1 => v % 2 * 2 ^ n + reverseBits (v / 2) n

/-- POPC (R124): a 32-bit D in both widths. -/
def execPopc (f : F3) (s : State) : Host.Outcome State Fault Refusal :=
  let wide := f.fn == 1
  s.issueGroup [dst32 f.d, srcW wide f.a] fun c x => x.wr c f.d false fun l => onesIn (x.rd f.a l wide) 64
/-- CLZ (R124): a 32-bit D in both widths. -/
def execClz (f : F3) (s : State) : Host.Outcome State Fault Refusal :=
  let wide := f.fn == 1
  s.issueGroup [dst32 f.d, srcW wide f.a] fun c x =>
    x.wr c f.d false fun l =>
      let v := x.rd f.a l wide
      let w := if wide then 64 else 32
      if v = 0 then w else w - 1 - v.log2
/-- BREV (R124). -/
def execBrev (f : F3) (s : State) : Host.Outcome State Fault Refusal :=
  let wide := f.fn == 1
  s.issueGroup [dstW wide f.d, srcW wide f.a] fun c x =>
    x.wr c f.d wide fun l => reverseBits (x.rd f.a l wide) (if wide then 64 else 32)

/-- One byte of BYSEL (R125): its control byte applied to the pool of eight bytes. -/
def byselByte (pool k : Nat) : Nat :=
  let v := pool / 2 ^ (8 * (k % 8)) % 256
  match k / 16 % 4 with
  | 0 => v
  | 1 => 0
  | 2 => if v.testBit 7 then 0xFF else 0
  | _ => 0xFF

/-- BYSEL (R125). -/
def execBysel (f : F3) (s : State) : Host.Outcome State Fault Refusal :=
  s.issueGroup [dst32 f.d, src32 f.a, src32 f.b, src32 f.c] fun c x =>
    x.wr c f.d false fun l =>
      let pool := x.rd32 f.a l + 2 ^ 32 * x.rd32 f.b l
      let k := x.rd32 f.c l
      byselByte pool (k % 256) + 2 ^ 8 * byselByte pool (k / 2 ^ 8 % 256) + 2 ^ 16 * byselByte pool (k / 2 ^ 16 % 256) +
        2 ^ 24 * byselByte pool (k / 2 ^ 24 % 256)

/-- SHFL (R126): the source lane and whether it lies in the segment. -/
def State.shuffle (s : State) (f : F3) (src : Nat → Nat → Nat → Nat → Nat × Bool) : Host.Outcome State Fault Refusal :=
  s.issueGroup [dst32 f.d, src32 f.a, src32 f.b] fun c x =>
    let n := 2 ^ f.md.toNat
    let pick (l : Nat) : Nat × Bool :=
      let (t, ok) := src n (l - l % n) l (x.rd32 f.b l)
      if ok && c.act.contains t then (x.rd32 f.a t, true) else (x.rd32 f.a l, false)
    (x.wr c f.d false fun l => (pick l).1).wrPred c f.pd fun l => (pick l).2

/-- SHFL.IDX (R126). -/
def execShflIdx (f : F3) (s : State) : Host.Outcome State Fault Refusal :=
  s.shuffle f fun n base _ b => (base + b % n, true)
/-- SHFL.UP (R126). -/
def execShflUp (f : F3) (s : State) : Host.Outcome State Fault Refusal :=
  s.shuffle f fun _ base l b => (l - b, decide (b ≤ l - base))
/-- SHFL.DOWN (R126). -/
def execShflDown (f : F3) (s : State) : Host.Outcome State Fault Refusal :=
  s.shuffle f fun n base l b => (l + b, decide (b < base + n - l))
/-- SHFL.XOR (R126). -/
def execShflXor (f : F3) (s : State) : Host.Outcome State Fault Refusal :=
  s.shuffle f fun n _ l b => (l ^^^ (b % n), true)

/-- BCAST (R127): the source lane's value to every active lane, if that lane is active. -/
def State.broadcast (s : State) (f : F3) (uses : List Use) (src : Ctx → Group → Nat) : Host.Outcome State Fault Refusal :=
  let wide := f.md.getLsbD 0
  s.issueGroup (dstW wide f.d :: srcW wide f.a :: uses) fun c x =>
    let t := src c x
    if c.act.contains t then
      let v := x.rd f.a t wide
      (x.wr c f.d wide fun _ => v).wrPred c f.pd fun _ => true
    else x.wrPred c f.pd fun _ => false

/-- BCAST (R127). -/
def execBcast (f : F3) (s : State) : Host.Outcome State Fault Refusal :=
  s.broadcast f [src32 f.b] fun c x => x.rd32 f.b c.low % 32
/-- BCAST.FIRST (R127). -/
def execBcastFirst (f : F3) (s : State) : Host.Outcome State Fault Refusal := s.broadcast f [] fun c _ => c.low

end Sys2Proof.Machine
end

