-- ==== Sys2Proof/Machine/Vfp.lean ====
section
/-!
DEFINITION. The vector floating-point instructions (class VFP, spec/06 R138 to R151).
-/
namespace Sys2Proof.Machine

/-- A scalar instruction that rounds an exact function of A, B and C once under mode() (R138). -/
def State.floatInstr (s : State) (f : F3) (nsrc : Nat) (op : Rm → Num → Num → Num → Num) : Host.Outcome State Fault Refusal :=
  let t := fmtOf f.ty
  s.issueGroup (dst32 f.d :: ([f.a, f.b, f.c].take nsrc).map src32) fun c x =>
    let rm := x.rmode f.rm f.md
    x.wrFlags c f.d false fun l => deliver x.ftz t rm (op rm (x.rdFl t f.a l) (x.rdFl t f.b l) (x.rdFl t f.c l))

/-- p + c of R138, after the sign modifiers NP and NC. -/
def ffma (md : BitVec 4) (rm : Rm) (a b c : Num) : Num :=
  let p := a.mul b
  sumNum rm [if md.getLsbD 0 then p.neg else p, if md.getLsbD 1 then c.neg else c]

/-- FADD (R138). -/
def execFadd (f : F3) (s : State) : Host.Outcome State Fault Refusal := s.floatInstr f 2 fun rm a b _ => sumNum rm [a, b]
/-- FSUB (R138). -/
def execFsub (f : F3) (s : State) : Host.Outcome State Fault Refusal := s.floatInstr f 2 fun rm a b _ => sumNum rm [a, b.neg]
/-- FMUL (R138). -/
def execFmul (f : F3) (s : State) : Host.Outcome State Fault Refusal := s.floatInstr f 2 fun _ a b _ => a.mul b
/-- FFMA (R138). -/
def execFfma (f : F3) (s : State) : Host.Outcome State Fault Refusal := s.floatInstr f 3 fun rm a b c => ffma f.md rm a b c

/-- FMIN or FMAX of two flushed operands (R139), exact in their format. -/
def minMax (t : Fmt) (isMax : Bool) (a b : Num) : Nat × Flags :=
  match decide (a = .nan), decide (b = .nan) with
  | true, true => (t.canon, .invalid)
  | true, false => t.convert .rne b
  | false, true => t.convert .rne a
  | false, false => t.convert .rne (if isMax then a.maxNum b else a.minNum b)

/-- FMIN and FMAX (R139). -/
def State.minMaxInstr (s : State) (f : F3) (isMax : Bool) : Host.Outcome State Fault Refusal :=
  let t := fmtOf f.ty
  s.issueGroup [dst32 f.d, src32 f.a, src32 f.b] fun c x =>
    x.wrFlags c f.d false fun l => minMax t isMax (x.rdFl t f.a l) (x.rdFl t f.b l)

/-- FMIN (R139). -/
def execFmin (f : F3) (s : State) : Host.Outcome State Fault Refusal := s.minMaxInstr f false
/-- FMAX (R139). -/
def execFmax (f : F3) (s : State) : Host.Outcome State Fault Refusal := s.minMaxInstr f true

/-- The comparison of FSETP (R140): the outcome, and whether NV is raised. -/
def fcompare (md : BitVec 4) (a b : Num) : Bool × Bool :=
  let cond := md.toNat % 8
  let u := md.getLsbD 3
  let unordered := decide (a = .nan) || decide (b = .nan)
  if cond = 6 then (!unordered, false)
  else if cond = 7 then (unordered, false)
  else if unordered then (u, decide (2 ≤ cond))
  else (condHolds cond (a.cmp b), false)

/-- FSETP (R140). -/
def execFsetp (f : F3) (s : State) : Host.Outcome State Fault Refusal :=
  let t := fmtOf f.ty
  s.issueGroup [src32 f.a, src32 f.b] fun c x =>
    let r (l : Nat) : Bool × Bool := fcompare f.md (x.rdFl t f.a l) (x.rdFl t f.b l)
    let nv := c.act.any fun l => (r l).2
    (x.wrPred c f.pd fun l => combinePred f.fn ((x.lane l).getPred f.pd) (r l).1).mergeFlags
      (if nv then .invalid else .none)

/-- The class mask of a raw code (R141). -/
def classMask (t : Fmt) (code : Nat) : Nat :=
  let neg := code.testBit t.sign
  let mag := code % 2 ^ t.sign
  if mag > t.infCode.getD 0 then (if mag.testBit (t.mb - 1) then 2 ^ 9 else 2 ^ 8)
  else if t.infCode = some mag then (if neg then 2 ^ 0 else 2 ^ 7)
  else if mag = 0 then (if neg then 2 ^ 3 else 2 ^ 4)
  else if mag < 2 ^ t.mb then (if neg then 2 ^ 2 else 2 ^ 5)
  else (if neg then 2 ^ 1 else 2 ^ 6)

/-- The raw code of a floating-point operand: a constant is the code of its value in the type (R62). -/
def Group.rdCode (x : Group) (t : Fmt) (o : Operand) (l : Nat) : Nat :=
  match o with
  | .const _ => (t.convert .rne (x.rdF t o l)).1
  | _ => x.rd32 o l % 2 ^ (t.sign + 1)

/-- FCLASS (R141). -/
def execFclass (f : F3) (s : State) : Host.Outcome State Fault Refusal :=
  let t := fmtOf f.ty
  s.issueGroup [dst32 f.d, src32 f.a] fun c x => x.wr c f.d false fun l => classMask t (x.rdCode t f.a l)

/-- Rounding to an integral value in the format (R142). A nonzero operand that rounds to zero raises NX alone, as R142 names it, and
not the UF of R36 (log 62). -/
def roundIntegral (t : Fmt) (rm : Rm) (x : Num) : Nat × Flags :=
  match x with
  | .fin neg m e =>
    if m = 0 ∨ e ≥ 0 then t.convert rm x
    else
      let (n, inexact) := roundAt rm neg m e false 0
      let r := t.convert rm (.fin neg n 0)
      (r.1, { r.2 with nx := r.2.nx || inexact })
  | _ => t.convert rm x

/-- FRND (R142). -/
def execFrnd (f : F3) (s : State) : Host.Outcome State Fault Refusal :=
  let t := fmtOf f.ty
  s.issueGroup [dst32 f.d, src32 f.a] fun c x =>
    x.wrFlags c f.d false fun l => roundIntegral t (x.rmode f.rm f.md) (x.rdFl t f.a l)
/-- FSCALE (R142). -/
def execFscale (f : F3) (s : State) : Host.Outcome State Fault Refusal :=
  let t := fmtOf f.ty
  s.issueGroup [dst32 f.d, src32 f.a, src32 f.b] fun c x =>
    x.wrFlags c f.d false fun l =>
      deliver x.ftz t (x.rmode f.rm f.md) ((x.rdFl t f.a l).scale (sextInt (x.rd32 f.b l) 32))

/-- An instruction on packed pairs (R143): each element by a function of the elements' codes. -/
def State.packedInstr (s : State) (f : F3) (nsrc : Nat) (op : Group → Rm → Fmt → Num → Num → Num → Nat × Flags) :
    Host.Outcome State Fault Refusal :=
  let t := fmtOf f.ty
  s.issueGroup (dst32 f.d :: ([f.a, f.b, f.c].take nsrc).map src32) fun c x =>
    let rm := x.rmode f.rm f.md
    x.wrFlags c f.d false fun l =>
      let e (i : Nat) : Nat × Flags := op x rm t (x.rdHalf t f.a l i) (x.rdHalf t f.b l i) (x.rdHalf t f.c l i)
      ((e 0).1 + 2 ^ 16 * (e 1).1, (e 0).2.or (e 1).2)

/-- HADD2 (R143). -/
def execHadd2 (f : F3) (s : State) : Host.Outcome State Fault Refusal :=
  s.packedInstr f 2 fun x rm t a b _ => deliver x.ftz t rm (sumNum rm [a, b])
/-- HMUL2 (R143). -/
def execHmul2 (f : F3) (s : State) : Host.Outcome State Fault Refusal :=
  s.packedInstr f 2 fun x rm t a b _ => deliver x.ftz t rm (a.mul b)
/-- HFMA2 (R143). -/
def execHfma2 (f : F3) (s : State) : Host.Outcome State Fault Refusal :=
  s.packedInstr f 3 fun x rm t a b c => deliver x.ftz t rm (ffma f.md rm a b c)
/-- HMNX2.MIN (R143). -/
def execHmnx2Min (f : F3) (s : State) : Host.Outcome State Fault Refusal :=
  s.packedInstr f 2 fun _ _ t a b _ => minMax t false a b
/-- HMNX2.MAX (R143). -/
def execHmnx2Max (f : F3) (s : State) : Host.Outcome State Fault Refusal :=
  s.packedInstr f 2 fun _ _ t a b _ => minMax t true a b

/-- DOT2 (R144): one rounding to FP32 from the exact value. -/
def execDot2 (f : F3) (s : State) : Host.Outcome State Fault Refusal :=
  let t := fmtOf f.ty
  s.issueGroup [dst32 f.d, src32 f.a, src32 f.b, src32 f.c] fun c x =>
    let rm := x.rmode f.rm f.md
    x.wrFlags c f.d false fun l =>
      let h (o : Operand) (i : Nat) : Num := x.rdHalf t o l i
      deliver x.ftz fp32 rm (sumNum rm [(h f.a 0).mul (h f.b 0), (h f.a 1).mul (h f.b 1), x.rdFl fp32 f.c l])

/-- REDL.ADD (R145): the exact sum over the active lanes, rounded once. -/
def execRedlAdd (f : F3) (s : State) : Host.Outcome State Fault Refusal :=
  s.issueGroup [dst32 f.d, src32 f.a] fun c x =>
    if c.act.isEmpty then x
    else
      let rm := x.rmode f.rm f.md
      let r := deliver x.ftz fp32 rm (sumNum rm (c.act.map fun l => x.rdFl fp32 f.a l))
      x.wrFlags c f.d false fun _ => r

/-- REDL.MAX and REDL.MIN (R145): NaN values take no part. -/
def State.reduceLanes (s : State) (f : F3) (isMax : Bool) : Host.Outcome State Fault Refusal :=
  s.issueGroup [dst32 f.d, src32 f.a] fun c x =>
    if c.act.isEmpty then x
    else
      let vs := (c.act.map fun l => x.rdFl fp32 f.a l).filter fun v => decide (v ≠ .nan)
      let r : Nat × Flags := match vs with
        | [] => (fp32.canon, .invalid)
        | v :: r => fp32.convert .rne (r.foldl (fun a b => if isMax then a.maxNum b else a.minNum b) v)
      x.wrFlags c f.d false fun _ => r

/-- REDL.MAX (R145). -/
def execRedlMax (f : F3) (s : State) : Host.Outcome State Fault Refusal := s.reduceLanes f true
/-- REDL.MIN (R145). -/
def execRedlMin (f : F3) (s : State) : Host.Outcome State Fault Refusal := s.reduceLanes f false

/-! ### Conversions (R146, R147) -/

/-- The format of a CVT code (R146); MXINT8 (8) is not a floating-point format. -/
def cvtFmt : Nat → Option Fmt
  | 0 => some fp32 | 1 => some fp16 | 2 => some bf16 | 3 => some e4m3 | 4 => some e5m2
  | 5 => some e3m2 | 6 => some e2m3 | 7 => some e2m1 | _ => none

/-- The value of a CVT source (R146): the unread bits are ignored; a narrow source has scale 1 (R41). -/
def cvtValue (code v : Nat) : Num :=
  match cvtFmt code with
  | some t => t.value (v % 2 ^ (t.sign + 1))
  | none => mxint8Value v

/-- The result of a CVT (R146). -/
def cvtResult (ftz : Bool) (code : Nat) (rm : Rm) (x : Num) : Nat × Flags :=
  match cvtFmt code with
  | some t => if code ≤ 2 then deliver ftz t rm x else t.convert rm x
  | none => mxint8Convert rm x

/-- CVT (R146). A constant source is the exact integer, whatever its format can hold (log 61). -/
def execCvt (f : F3) (s : State) : Host.Outcome State Fault Refusal :=
  let src := f.fn.toNat % 16
  let dst := f.fn.toNat / 16
  s.issueGroup [dst32 f.d, src32 f.a] fun c x =>
    x.wrFlags c f.d false fun l =>
      let v : Num := match f.a with
        | .const n => let i : Int := (n.val : Int) - 127; .fin (decide (i < 0)) i.natAbs 0
        | _ => cvtValue src (x.rd32 f.a l)
      cvtResult x.ftz dst (x.rmode f.rm f.md) (flushIn x.ftz v)

/-- The format of CVTI's float code (R147). -/
def cvtiFmt (md : BitVec 4) : Fmt := match md.toNat % 4 with | 0 => fp32 | 1 => fp16 | _ => bf16

/-- CVTI.F2I (R147, R37). -/
def execCvtiF2i (f : F3) (s : State) : Host.Outcome State Fault Refusal :=
  let t := intTy f.ty
  let ff := cvtiFmt f.md
  s.issueGroup [dstW t.wide f.d, src32 f.a] fun c x =>
    x.wrFlags c f.d t.wide fun l => toInteger t.w t.signed (x.rmode f.rm f.md) (x.rdFl ff f.a l)
/-- CVTI.I2F (R147). -/
def execCvtiI2f (f : F3) (s : State) : Host.Outcome State Fault Refusal :=
  let t := intTy f.ty
  let ff := cvtiFmt f.md
  s.issueGroup [dst32 f.d, srcW t.wide f.a] fun c x =>
    x.wrFlags c f.d false fun l =>
      let v := t.val (x.rd f.a l t.wide) 0
      ff.convert (x.rmode f.rm f.md) (.fin (decide (v < 0)) v.natAbs 0)

/-! ### Blocks (R148, R149) -/

/-- Registers of a block's byte image (R148). -/
def blockRegs (fmt : Nat) : Nat := blockBytes fmt / 4

/-- QMX (R148): all 32 inputs are read first; where C names a register of D's run, the scale is the value that stays (log 63). -/
def execQmx (f : F3) (s : State) : Host.Outcome State Fault Refusal :=
  let fmt := f.md.toNat % 8
  s.issueGroup [{ dstRun f.d (blockRegs fmt) false with noneOk := false }, { srcRun f.a 32 false with noneOk := false },
      dst32 f.c] fun c x =>
    let rm := x.rmode f.rm f.md
    let r (l : Nat) : Nat × List Nat × Flags :=
      let image := x.rdRegs f.a l 32
      quantise fmt rm ((List.range 32).map fun i => flushIn x.ftz (fp32.value (image / 2 ^ (32 * i) % 2 ^ 32)))
    let y := c.act.foldl (fun y l => y.putRegs f.d l (packElems (elemBits fmt) (r l).2.1) (blockRegs fmt)) x
    let y := y.wr c f.c false fun l => (r l).1
    y.mergeFlags (c.act.foldl (fun a l => a.or (r l).2.2) .none)

/-- DQMX (R149): 32 scaled values, each rounded under mode() and passed through the output flush (R39, R40); a narrow element
meets no flush on input (R41). A NaN raises NV. -/
def execDqmx (f : F3) (s : State) : Host.Outcome State Fault Refusal :=
  let fmt := f.md.toNat % 8
  s.issueGroup [{ dstRun f.d 32 false with noneOk := false }, { srcRun f.a (blockRegs fmt) false with noneOk := false },
      src32 f.b] fun c x =>
    let rm := x.rmode f.rm f.md
    let r (l : Nat) : List (Nat × Flags) :=
      let image := x.rdRegs f.a l (blockRegs fmt)
      let scale := x.rd32 f.b l % 256
      (List.range 32).map fun i =>
        deliver x.ftz fp32 rm (scaledValue fmt scale (elemAt (elemBits fmt) image i))
    let y := c.act.foldl (fun y l => y.putRegs f.d l (packElems 32 ((r l).map Prod.fst)) 32) x
    y.mergeFlags (c.act.foldl (fun a l => (r l).foldl (fun a e => a.or e.2) a) .none)

/-! ### PACK and UNPACK (R150, R151) -/

/-- PACK.H16 and PACK.B16 (R150). -/
def State.packWide (s : State) (f : F3) (t : Fmt) : Host.Outcome State Fault Refusal :=
  s.issueGroup [dst32 f.d, src32 f.a, src32 f.b] fun c x =>
    let rm := x.rmode f.rm f.md
    x.wrFlags c f.d false fun l =>
      let a := deliver x.ftz t rm (x.rdFl fp32 f.a l)
      let b := deliver x.ftz t rm (x.rdFl fp32 f.b l)
      (b.1 * 2 ^ 16 + a.1, a.2.or b.2)

/-- PACK.E4M3 and PACK.E5M2 (R150): the other half of D keeps its value. -/
def State.packNarrow (s : State) (f : F3) (t : Fmt) : Host.Outcome State Fault Refusal :=
  let h := if f.md.getLsbD 0 then 16 else 0
  s.issueGroup [dst32 f.d, src32 f.a, src32 f.b] fun c x =>
    let rm := x.rmode f.rm f.md
    x.wrFlags c f.d false fun l =>
      let a := t.convert rm (x.rdFl fp32 f.a l)
      let b := t.convert rm (x.rdFl fp32 f.b l)
      (setBits (x.rd32 f.d l) (h + 15) h (a.1 + 256 * b.1), a.2.or b.2)

/-- PACK.H16 (R150). -/
def execPackH16 (f : F3) (s : State) : Host.Outcome State Fault Refusal := s.packWide f fp16
/-- PACK.B16 (R150). -/
def execPackB16 (f : F3) (s : State) : Host.Outcome State Fault Refusal := s.packWide f bf16
/-- PACK.E4M3 (R150). -/
def execPackE4m3 (f : F3) (s : State) : Host.Outcome State Fault Refusal := s.packNarrow f e4m3
/-- PACK.E5M2 (R150). -/
def execPackE5m2 (f : F3) (s : State) : Host.Outcome State Fault Refusal := s.packNarrow f e5m2

/-- The format and width of an UNPACK element (R151). -/
def unpackFmt : Nat → Fmt × Nat
  | 0 => (fp16, 16) | 1 => (bf16, 16) | 2 => (e4m3, 8) | 3 => (e5m2, 8) | _ => (e2m1, 4)

/-- Element i of w bits of a packed operand in a format: a constant stands for its value in every element (R62, log 61). -/
def Group.rdElem (x : Group) (t : Fmt) (w : Nat) (o : Operand) (l i : Nat) : Num :=
  match o with
  | .const _ => x.rdF t o l
  | _ => t.value (x.rd32 o l / 2 ^ (w * i) % 2 ^ w)

/-- UNPACK (R151): exact, through the output flush; a NaN element raises NV. -/
def execUnpack (f : F3) (s : State) : Host.Outcome State Fault Refusal :=
  let (t, w) := unpackFmt f.fn.toNat
  s.issueGroup [dst32 f.d, src32 f.a] fun c x =>
    x.wrFlags c f.d false fun l => deliver x.ftz fp32 .rne (x.rdElem t w f.a l (f.md.toNat % 8))

/-! ### The function units (R152, R153) -/

/-- An instruction of the function units with one operand (R152): RNE whatever FPCTL says. -/
def State.funcInstr (s : State) (f : F3) (fn : Func) : Host.Outcome State Fault Refusal :=
  let t := fmtOf f.ty
  s.issueGroup [dst32 f.d, src32 f.a] fun c x =>
    x.wrFlags c f.d false fun l => flushOut x.ftz t (fn.eval t (x.rdFl t f.a l))

/-- FRCP (R152, R46). -/
def execFrcp (f : F3) (s : State) : Host.Outcome State Fault Refusal := s.funcInstr f .rcp
/-- FRSQ (R152, R46). -/
def execFrsq (f : F3) (s : State) : Host.Outcome State Fault Refusal := s.funcInstr f .rsq
/-- FSQRT (R152, R46). -/
def execFsqrt (f : F3) (s : State) : Host.Outcome State Fault Refusal := s.funcInstr f .sqrt
/-- FEXP2 (R152, R46). -/
def execFexp2 (f : F3) (s : State) : Host.Outcome State Fault Refusal := s.funcInstr f .exp2
/-- FLOG2 (R152, R46). -/
def execFlog2 (f : F3) (s : State) : Host.Outcome State Fault Refusal := s.funcInstr f .log2
/-- FTANH (R152, R46). -/
def execFtanh (f : F3) (s : State) : Host.Outcome State Fault Refusal := s.funcInstr f .tanh
/-- FSIGM (R152, R46). -/
def execFsigm (f : F3) (s : State) : Host.Outcome State Fault Refusal := s.funcInstr f .sigm
/-- FSIN (R152, R46). -/
def execFsin (f : F3) (s : State) : Host.Outcome State Fault Refusal := s.funcInstr f .sin
/-- FCOS (R152, R46). -/
def execFcos (f : F3) (s : State) : Host.Outcome State Fault Refusal := s.funcInstr f .cos
/-- FERF (R152, R46). -/
def execFerf (f : F3) (s : State) : Host.Outcome State Fault Refusal := s.funcInstr f .erf
/-- FEXPM (R153, R47). -/
def execFexpm (f : F3) (s : State) : Host.Outcome State Fault Refusal :=
  let t := fmtOf f.ty
  s.issueGroup [dst32 f.d, src32 f.a, src32 f.b, src32 f.c] fun c x =>
    x.wrFlags c f.d false fun l => flushOut x.ftz t (fexpm t (x.rdFl t f.a l) (x.rdFl t f.b l) (x.rdFl t f.c l))

end Sys2Proof.Machine
end

