-- ==== Sys2Proof/Machine/Dispatch.lean ====
section
/-!
DEFINITION. One arm for every instruction and event of spec/opcode_table.json.
-/
namespace Sys2Proof.Machine

def exec (i : Instr) (s : State) : Host.Outcome State Fault Refusal :=
  match i with
  | .bra f => Sys2Proof.Machine.execBra f s
  | .brx f => Sys2Proof.Machine.execBrx f s
  | .call f => Sys2Proof.Machine.execCall f s
  | .ret f => Sys2Proof.Machine.execRet f s
  | .join f => Sys2Proof.Machine.execJoin f s
  | .leave f => Sys2Proof.Machine.execLeave f s
  | .waitm f => Sys2Proof.Machine.execWaitm f s
  | .voteBallot f => Sys2Proof.Machine.execVoteBallot f s
  | .voteAll f => Sys2Proof.Machine.execVoteAll f s
  | .voteAny f => Sys2Proof.Machine.execVoteAny f s
  | .voteEq f => Sys2Proof.Machine.execVoteEq f s
  | .voteMask f => Sys2Proof.Machine.execVoteMask f s
  | .elect f => Sys2Proof.Machine.execElect f s
  | .electIn f => Sys2Proof.Machine.execElectIn f s
  | .msetMov f => Sys2Proof.Machine.execMsetMov f s
  | .msetOr f => Sys2Proof.Machine.execMsetOr f s
  | .msetAnd f => Sys2Proof.Machine.execMsetAnd f s
  | .msetAndn f => Sys2Proof.Machine.execMsetAndn f s
  | .mget f => Sys2Proof.Machine.execMget f s
  | .mgetArr f => Sys2Proof.Machine.execMgetArr f s
  | .mgetLive f => Sys2Proof.Machine.execMgetLive f s
  | .spawn f => Sys2Proof.Machine.execSpawn f s
  | .nap f => Sys2Proof.Machine.execNap f s
  | .bari f => Sys2Proof.Machine.execBari f s
  | .arrive f => Sys2Proof.Machine.execArrive f s
  | .arriveOne f => Sys2Proof.Machine.execArriveOne f s
  | .await f => Sys2Proof.Machine.execAwait f s
  | .awaitTest f => Sys2Proof.Machine.execAwaitTest f s
  | .cbar f => Sys2Proof.Machine.execCbar f s
  | .kbar f => Sys2Proof.Machine.execKbar f s
  | .mov f => Sys2Proof.Machine.execMov f s
  | .movi f => Sys2Proof.Machine.execMovi f s
  | .moviSx f => Sys2Proof.Machine.execMoviSx f s
  | .moviHi f => Sys2Proof.Machine.execMoviHi f s
  | .sel f => Sys2Proof.Machine.execSel f s
  | .lea f => Sys2Proof.Machine.execLea f s
  | .iadd f => Sys2Proof.Machine.execIadd f s
  | .isub f => Sys2Proof.Machine.execIsub f s
  | .imul f => Sys2Proof.Machine.execImul f s
  | .imulh f => Sys2Proof.Machine.execImulh f s
  | .imad f => Sys2Proof.Machine.execImad f s
  | .imin f => Sys2Proof.Machine.execImin f s
  | .imax f => Sys2Proof.Machine.execImax f s
  | .iabs f => Sys2Proof.Machine.execIabs f s
  | .iaddcAdd f => Sys2Proof.Machine.execIaddcAdd f s
  | .iaddcAddc f => Sys2Proof.Machine.execIaddcAddc f s
  | .iaddcSub f => Sys2Proof.Machine.execIaddcSub f s
  | .iaddcSubb f => Sys2Proof.Machine.execIaddcSubb f s
  | .isetp f => Sys2Proof.Machine.execIsetp f s
  | .pset f => Sys2Proof.Machine.execPset f s
  | .psetNz f => Sys2Proof.Machine.execPsetNz f s
  | .pmov f => Sys2Proof.Machine.execPmov f s
  | .and f => Sys2Proof.Machine.execAnd f s
  | .or f => Sys2Proof.Machine.execOr f s
  | .xor f => Sys2Proof.Machine.execXor f s
  | .andn f => Sys2Proof.Machine.execAndn f s
  | .btab f => Sys2Proof.Machine.execBtab f s
  | .shl f => Sys2Proof.Machine.execShl f s
  | .shr f => Sys2Proof.Machine.execShr f s
  | .sar f => Sys2Proof.Machine.execSar f s
  | .rot f => Sys2Proof.Machine.execRot f s
  | .bfe f => Sys2Proof.Machine.execBfe f s
  | .bfi f => Sys2Proof.Machine.execBfi f s
  | .popc f => Sys2Proof.Machine.execPopc f s
  | .clz f => Sys2Proof.Machine.execClz f s
  | .brev f => Sys2Proof.Machine.execBrev f s
  | .bysel f => Sys2Proof.Machine.execBysel f s
  | .shflIdx f => Sys2Proof.Machine.execShflIdx f s
  | .shflUp f => Sys2Proof.Machine.execShflUp f s
  | .shflDown f => Sys2Proof.Machine.execShflDown f s
  | .shflXor f => Sys2Proof.Machine.execShflXor f s
  | .bcast f => Sys2Proof.Machine.execBcast f s
  | .bcastFirst f => Sys2Proof.Machine.execBcastFirst f s
  | .rdsr f => Sys2Proof.Machine.execRdsr f s
  | .wrsr f => Sys2Proof.Machine.execWrsr f s
  | .wgrow f => Sys2Proof.Machine.execWgrow f s
  | .wshrink f => Sys2Proof.Machine.execWshrink f s
  | .fadd f => Sys2Proof.Machine.execFadd f s
  | .fsub f => Sys2Proof.Machine.execFsub f s
  | .fmul f => Sys2Proof.Machine.execFmul f s
  | .ffma f => Sys2Proof.Machine.execFfma f s
  | .fmin f => Sys2Proof.Machine.execFmin f s
  | .fmax f => Sys2Proof.Machine.execFmax f s
  | .fsetp f => Sys2Proof.Machine.execFsetp f s
  | .fclass f => Sys2Proof.Machine.execFclass f s
  | .frnd f => Sys2Proof.Machine.execFrnd f s
  | .fscale f => Sys2Proof.Machine.execFscale f s
  | .hadd2 f => Sys2Proof.Machine.execHadd2 f s
  | .hmul2 f => Sys2Proof.Machine.execHmul2 f s
  | .hfma2 f => Sys2Proof.Machine.execHfma2 f s
  | .hmnx2Min f => Sys2Proof.Machine.execHmnx2Min f s
  | .hmnx2Max f => Sys2Proof.Machine.execHmnx2Max f s
  | .dot2 f => Sys2Proof.Machine.execDot2 f s
  | .redlAdd f => Sys2Proof.Machine.execRedlAdd f s
  | .redlMax f => Sys2Proof.Machine.execRedlMax f s
  | .redlMin f => Sys2Proof.Machine.execRedlMin f s
  | .cvt f => Sys2Proof.Machine.execCvt f s
  | .cvtiF2i f => Sys2Proof.Machine.execCvtiF2i f s
  | .cvtiI2f f => Sys2Proof.Machine.execCvtiI2f f s
  | .qmx f => Sys2Proof.Machine.execQmx f s
  | .dqmx f => Sys2Proof.Machine.execDqmx f s
  | .packH16 f => Sys2Proof.Machine.execPackH16 f s
  | .packB16 f => Sys2Proof.Machine.execPackB16 f s
  | .packE4m3 f => Sys2Proof.Machine.execPackE4m3 f s
  | .packE5m2 f => Sys2Proof.Machine.execPackE5m2 f s
  | .unpack f => Sys2Proof.Machine.execUnpack f s
  | .frcp f => Sys2Proof.Machine.execFrcp f s
  | .frsq f => Sys2Proof.Machine.execFrsq f s
  | .fsqrt f => Sys2Proof.Machine.execFsqrt f s
  | .fexp2 f => Sys2Proof.Machine.execFexp2 f s
  | .flog2 f => Sys2Proof.Machine.execFlog2 f s
  | .ftanh f => Sys2Proof.Machine.execFtanh f s
  | .fsigm f => Sys2Proof.Machine.execFsigm f s
  | .fsin f => Sys2Proof.Machine.execFsin f s
  | .fcos f => Sys2Proof.Machine.execFcos f s
  | .ferf f => Sys2Proof.Machine.execFerf f s
  | .fexpm f => Sys2Proof.Machine.execFexpm f s
  | .lds f => Sys2Proof.Machine.execLds f s
  | .sts f => Sys2Proof.Machine.execSts f s
  | .ldsr f => Sys2Proof.Machine.execLdsr f s
  | .stsr f => Sys2Proof.Machine.execStsr f s
  | .atoms f => Sys2Proof.Machine.execAtoms f s
  | .lda f => Sys2Proof.Machine.execLda f s
  | .sta f => Sys2Proof.Machine.execSta f s
  | .zacc f => Sys2Proof.Machine.execZacc f s
  | .zaccRows f => Sys2Proof.Machine.execZaccRows f s
  | .sfill f => Sys2Proof.Machine.execSfill f s
  | .msign f => Sys2Proof.Machine.execMsign f s
  | .wload f => Sys2Proof.Machine.execWload f s
  | .tmma f => Sys2Proof.Machine.execTmma f s
  | .adpt f => Sys2Proof.Machine.execAdpt f s
  | .tstat f => Sys2Proof.Machine.execTstat f s
  | .tshape f => Sys2Proof.Machine.execTshape f s
  | .rhdr f => Sys2Proof.Machine.execRhdr f s
  | .rhdrFlags f => Sys2Proof.Machine.execRhdrFlags f s
  | .tkfwd f => Sys2Proof.Machine.execTkfwd f s
  | .tkfwdId f => Sys2Proof.Machine.execTkfwdId f s
  | .tkpark f => Sys2Proof.Machine.execTkpark f s
  | .tkdone f => Sys2Proof.Machine.execTkdone f s
  | .tkdoneEnd f => Sys2Proof.Machine.execTkdoneEnd f s
  | .tkdoneId f => Sys2Proof.Machine.execTkdoneId f s
  | .tkdoneEndId f => Sys2Proof.Machine.execTkdoneEndId f s
  | .tknew f => Sys2Proof.Machine.execTknew f s
  | .gatek f => Sys2Proof.Machine.execGatek f s
  | .colq f => Sys2Proof.Machine.execColq f s
  | .opbind f => Sys2Proof.Machine.execOpbind f s
  | .opunbind f => Sys2Proof.Machine.execOpunbind f s
  | .opunbindClose f => Sys2Proof.Machine.execOpunbindClose f s
  | .board f => Sys2Proof.Machine.execBoard f s
  | .boardSel f => Sys2Proof.Machine.execBoardSel f s
  | .boardLeave f => Sys2Proof.Machine.execBoardLeave f s
  | .xpred f => Sys2Proof.Machine.execXpred f s
  | .crstat f => Sys2Proof.Machine.execCrstat f s
  | .ridgePause f => Sys2Proof.Machine.execRidgePause f s
  | .ridgeResume f => Sys2Proof.Machine.execRidgeResume f s
  | .ridgeSync f => Sys2Proof.Machine.execRidgeSync f s
  | .ldg f => Sys2Proof.Machine.execLdg f s
  | .stg f => Sys2Proof.Machine.execStg f s
  | .stgm f => Sys2Proof.Machine.execStgm f s
  | .prefSlice f => Sys2Proof.Machine.execPrefSlice f s
  | .prefMem f => Sys2Proof.Machine.execPrefMem f s
  | .fenceAr f => Sys2Proof.Machine.execFenceAr f s
  | .fenceAcq f => Sys2Proof.Machine.execFenceAcq f s
  | .fenceRel f => Sys2Proof.Machine.execFenceRel f s
  | .fenceSc f => Sys2Proof.Machine.execFenceSc f s
  | .tlbq f => Sys2Proof.Machine.execTlbq f s
  | .tlbqFill f => Sys2Proof.Machine.execTlbqFill f s
  | .pghintWill f => Sys2Proof.Machine.execPghintWill f s
  | .pghintDont f => Sys2Proof.Machine.execPghintDont f s
  | .pghintPin f => Sys2Proof.Machine.execPghintPin f s
  | .pghintUnpin f => Sys2Proof.Machine.execPghintUnpin f s
  | .cctlZero f => Sys2Proof.Machine.execCctlZero f s
  | .cctlEvict f => Sys2Proof.Machine.execCctlEvict f s
  | .cctlHint f => Sys2Proof.Machine.execCctlHint f s
  | .waitv f => Sys2Proof.Machine.execWaitv f s
  | .atom f => Sys2Proof.Machine.execAtom f s
  | .atomr f => Sys2Proof.Machine.execAtomr f s
  | .pacq f => Sys2Proof.Machine.execPacq f s
  | .prel f => Sys2Proof.Machine.execPrel f s
  | .ptry f => Sys2Proof.Machine.execPtry f s
  | .tbegin f => Sys2Proof.Machine.execTbegin f s
  | .tend f => Sys2Proof.Machine.execTend f s
  | .tabort f => Sys2Proof.Machine.execTabort f s
  | .tstate f => Sys2Proof.Machine.execTstate f s
  | .tstateClr f => Sys2Proof.Machine.execTstateClr f s
  | .acp f => Sys2Proof.Machine.execAcp f s
  | .acps f => Sys2Proof.Machine.execAcps f s
  | .xcopy f => Sys2Proof.Machine.execXcopy f s
  | .xmcast f => Sys2Proof.Machine.execXmcast f s
  | .xgath f => Sys2Proof.Machine.execXgath f s
  | .xfill f => Sys2Proof.Machine.execXfill f s
  | .xstatCnt f => Sys2Proof.Machine.execXstatCnt f s
  | .xstatErr f => Sys2Proof.Machine.execXstatErr f s
  | .xstatEng f => Sys2Proof.Machine.execXstatEng f s
  | .kvmap f => Sys2Proof.Machine.execKvmap f s
  | .kvmapInfo f => Sys2Proof.Machine.execKvmapInfo f s
  | .kvapp f => Sys2Proof.Machine.execKvapp f s
  | .kvfork f => Sys2Proof.Machine.execKvfork f s
  | .kvfree f => Sys2Proof.Machine.execKvfree f s
  | .kvfreeAll f => Sys2Proof.Machine.execKvfreeAll f s
  | .kstore f => Sys2Proof.Machine.execKstore f s
  | .cgath f => Sys2Proof.Machine.execCgath f s
  | .cgathTrap f => Sys2Proof.Machine.execCgathTrap f s
  | .cred f => Sys2Proof.Machine.execCred f s
  | .credNorm f => Sys2Proof.Machine.execCredNorm f s
  | .cproj f => Sys2Proof.Machine.execCproj f s
  | .penal f => Sys2Proof.Machine.execPenal f s
  | .cntupd f => Sys2Proof.Machine.execCntupd f s
  | .rand f => Sys2Proof.Machine.execRand f s
  | .randU01 f => Sys2Proof.Machine.execRandU01 f s
  | .scanb f => Sys2Proof.Machine.execScanb f s
  | .scanbFlush f => Sys2Proof.Machine.execScanbFlush f s
  | .scanbReset f => Sys2Proof.Machine.execScanbReset f s
  | .scanr f => Sys2Proof.Machine.execScanr f s
  | .seqadm f => Sys2Proof.Machine.execSeqadm f s
  | .seqadmRel f => Sys2Proof.Machine.execSeqadmRel f s
  | .seqadmInfo f => Sys2Proof.Machine.execSeqadmInfo f s
  | .seqsteal f => Sys2Proof.Machine.execSeqsteal f s
  | .sysc f => Sys2Proof.Machine.execSysc f s
  | .hcall f => Sys2Proof.Machine.execHcall f s
  | .brk f => Sys2Proof.Machine.execBrk f s
  | .rdpr f => Sys2Proof.Machine.execRdpr f s
  | .wrpr f => Sys2Proof.Machine.execWrpr f s
  | .wrprX f => Sys2Proof.Machine.execWrprX f s
  | .tlbinvVa f => Sys2Proof.Machine.execTlbinvVa f s
  | .tlbinvAsid f => Sys2Proof.Machine.execTlbinvAsid f s
  | .tlbinvVmid f => Sys2Proof.Machine.execTlbinvVmid f s
  | .tlbinvAll f => Sys2Proof.Machine.execTlbinvAll f s
  | .ctxsv f => Sys2Proof.Machine.execCtxsv f s
  | .ctxld f => Sys2Proof.Machine.execCtxld f s
  | .replayData f => Sys2Proof.Machine.execReplayData f s
  | .haltgStop f => Sys2Proof.Machine.execHaltgStop f s
  | .haltgGo f => Sys2Proof.Machine.execHaltgGo f s
  | .haltgKill f => Sys2Proof.Machine.execHaltgKill f s
  | .haltgQuery f => Sys2Proof.Machine.execHaltgQuery f s
  | .svcfgBudget f => Sys2Proof.Machine.execSvcfgBudget f s
  | .pgdone f => Sys2Proof.Machine.execPgdone f s
  | .pgdoneDeny f => Sys2Proof.Machine.execPgdoneDeny f s
  | .freezeRegion f => Sys2Proof.Machine.execFreezeRegion f s
  | .freezeThaw f => Sys2Proof.Machine.execFreezeThaw f s
  | .freezeSlot f => Sys2Proof.Machine.execFreezeSlot f s
  | .freezeSlotthaw f => Sys2Proof.Machine.execFreezeSlotthaw f s
  | .nop => Sys2Proof.Machine.execNop s
  | .exit => Sys2Proof.Machine.execExit s
  | .yield => Sys2Proof.Machine.execYield s
  | .yieldAge => Sys2Proof.Machine.execYieldAge s
  | .wloadRel => Sys2Proof.Machine.execWloadRel s
  | .sret => Sys2Proof.Machine.execSret s
  | .hret => Sys2Proof.Machine.execHret s
  | .replayRetry => Sys2Proof.Machine.execReplayRetry s
  | .replayOp => Sys2Proof.Machine.execReplayOp s
  | .svcfgNoidem => Sys2Proof.Machine.execSvcfgNoidem s
  | .groupRetire => Sys2Proof.Machine.execGroupRetire s
  | .napExpiry => Sys2Proof.Machine.execNapExpiry s
  | .barrierRelease => Sys2Proof.Machine.execBarrierRelease s
  | .issueSelect => Sys2Proof.Machine.execIssueSelect s
  | .lineRefetch => Sys2Proof.Machine.execLineRefetch s
  | .asyncEventTake => Sys2Proof.Machine.execAsyncEventTake s
  | .sfillComplete => Sys2Proof.Machine.execSfillComplete s
  | .spmapWrite => Sys2Proof.Machine.execSpmapWrite s
  | .accownWrite => Sys2Proof.Machine.execAccownWrite s
  | .bankReady => Sys2Proof.Machine.execBankReady s
  | .landingBufferMove => Sys2Proof.Machine.execLandingBufferMove s
  | .arrayStart => Sys2Proof.Machine.execArrayStart s
  | .arrayOpComplete => Sys2Proof.Machine.execArrayOpComplete s
  | .recordEnterCol => Sys2Proof.Machine.execRecordEnterCol s
  | .colFireTimeout => Sys2Proof.Machine.execColFireTimeout s
  | .colFireFill => Sys2Proof.Machine.execColFireFill s
  | .dispatchPlace => Sys2Proof.Machine.execDispatchPlace s
  | .adapterPrefetchWarm => Sys2Proof.Machine.execAdapterPrefetchWarm s
  | .tokenPacketArrive => Sys2Proof.Machine.execTokenPacketArrive s
  | .tokenPacketAck => Sys2Proof.Machine.execTokenPacketAck s
  | .balancerClone => Sys2Proof.Machine.execBalancerClone s
  | .balancerClose => Sys2Proof.Machine.execBalancerClose s
  | .mergeRelease => Sys2Proof.Machine.execMergeRelease s
  | .stallWatchHang => Sys2Proof.Machine.execStallWatchHang s
  | .boardTakeEffect => Sys2Proof.Machine.execBoardTakeEffect s
  | .passOpen => Sys2Proof.Machine.execPassOpen s
  | .blockReadIssue => Sys2Proof.Machine.execBlockReadIssue s
  | .blockDeliver => Sys2Proof.Machine.execBlockDeliver s
  | .rideEject => Sys2Proof.Machine.execRideEject s
  | .waitvRecheck => Sys2Proof.Machine.execWaitvRecheck s
  | .tlbWalkComplete => Sys2Proof.Machine.execTlbWalkComplete s
  | .faultRecordWrite => Sys2Proof.Machine.execFaultRecordWrite s
  | .memRequestSlotGrant => Sys2Proof.Machine.execMemRequestSlotGrant s
  | .memAccessPerform => Sys2Proof.Machine.execMemAccessPerform s
  | .accessReply => Sys2Proof.Machine.execAccessReply s
  | .replMulticastStore => Sys2Proof.Machine.execReplMulticastStore s
  | .settleSweep => Sys2Proof.Machine.execSettleSweep s
  | .tlbinvSwitch => Sys2Proof.Machine.execTlbinvSwitch s
  | .svcRequestPerform => Sys2Proof.Machine.execSvcRequestPerform s
  | .pacqRetry => Sys2Proof.Machine.execPacqRetry s
  | .portalCompletion => Sys2Proof.Machine.execPortalCompletion s
  | .fallbackPermitGrant => Sys2Proof.Machine.execFallbackPermitGrant s
  | .txValidateTimer => Sys2Proof.Machine.execTxValidateTimer s
  | .txValidateReply => Sys2Proof.Machine.execTxValidateReply s
  | .acpTransferComplete => Sys2Proof.Machine.execAcpTransferComplete s
  | .enginePiece => Sys2Proof.Machine.execEnginePiece s
  | .engineRequestComplete => Sys2Proof.Machine.execEngineRequestComplete s
  | .xmcastTargetArrive => Sys2Proof.Machine.execXmcastTargetArrive s
  | .kvRequestPerform => Sys2Proof.Machine.execKvRequestPerform s
  | .kvCowCopyRead => Sys2Proof.Machine.execKvCowCopyRead s
  | .kstorePublish => Sys2Proof.Machine.execKstorePublish s
  | .credMerge => Sys2Proof.Machine.execCredMerge s
  | .scanRequestPerform => Sys2Proof.Machine.execScanRequestPerform s
  | .budgetExpire => Sys2Proof.Machine.execBudgetExpire s
  | .pkgcfgWrite => Sys2Proof.Machine.execPkgcfgWrite s
  | .lattolWrite => Sys2Proof.Machine.execLattolWrite s
  | .msixdbWrite => Sys2Proof.Machine.execMsixdbWrite s
  | .mgmtRegWrite => Sys2Proof.Machine.execMgmtRegWrite s
  | .hostBar2Read => Sys2Proof.Machine.execHostBar2Read s
  | .hostBar2Write => Sys2Proof.Machine.execHostBar2Write s
  | .hostAtomicop => Sys2Proof.Machine.execHostAtomicop s
  | .peerRequest => Sys2Proof.Machine.execPeerRequest s
  | .pslPortDown => Sys2Proof.Machine.execPslPortDown s
  | .powerStateChange => Sys2Proof.Machine.execPowerStateChange s
  | .wakeEvent => Sys2Proof.Machine.execWakeEvent s
  | .startup => Sys2Proof.Machine.execStartup s
  | .firmwareReload => Sys2Proof.Machine.execFirmwareReload s
  | .frozenRideEject => Sys2Proof.Machine.execFrozenRideEject s
  | .arrayStreamingEnd => Sys2Proof.Machine.execArrayStreamingEnd s
  | .gatherPortReply => Sys2Proof.Machine.execGatherPortReply s

end Sys2Proof.Machine
end

