-- ==== Sys2Proof/Machine/Step.lean ====
section
/-!
DEFINITION. One step of the machine: the latched PC set goes through the front of the pipeline and its instruction runs, or the
next event of the schedule happens (log 1).
-/
namespace Sys2Proof.Machine

/-- What the front of the pipeline makes of a latched PC set, and its instruction or event. -/
def runFront (s : State) (i : Issue) : Host.Outcome State Fault Refusal :=
  match s.front i with
  | .finished s' => .next s'
  | .refetch s' => exec .lineRefetch s'
  | .take s' _ => exec .asyncEventTake s'
  | .run s' ins => exec ins s'

/-- What a latched PC set does: it goes through the front of the pipeline, and its instruction runs; an entry into a trap can wait. -/
def runSet (s : State) (i : Issue) : Host.Outcome State Fault Refusal := s.heldEntry i (runFront s i)

/-- What the latch does, if a set stands in it. -/
def runLatch (s : State) : Host.Outcome State Fault Refusal :=
  match s.cur with
  | some i => runSet s i
  | none => .next s

/-- An event happens; the clock has moved on. A schedule entry that is no event is passed over. -/
def stepTurn (s : State) (t : Turn) : Host.Outcome State Fault Refusal :=
  let s := { s.passTime t.after with turn := t.args }
  if t.event.isEvent && s.mayHappen t.event then exec t.event (s.beforeEvent runLatch t.event) else .next s

/-- What holds after a step, of the state it gives and the one before it (R446). -/
def watched (before : State) : Host.Outcome State Fault Refusal → Host.Outcome State Fault Refusal
  | .next s => .next (before.watchPower s)
  | o => o

/-- One step, before what holds after it. -/
def stepCore (s : State) : Host.Outcome State Fault Refusal :=
  match s.cur with
  | some i => runSet s i
  | none =>
    match s.sched with
    | t :: r => stepTurn { s with sched := r } t
    | [] => stepTurn s s.defaultTurn

/-- One step. -/
def step (s : State) : Host.Outcome State Fault Refusal := watched s (stepCore s)

/-- The state with an instruction stored where the next step fetches it (log 3). -/
def State.withFetchWord (s : State) (nbits w : Nat) : State := s.placeWord (w % 2 ^ min nbits 96)

end Sys2Proof.Machine
end

