-- ==== Sys2Proof/Safety.lean ====
section
/-!
DEFINITION. The terms in which claims are made: what counts as a safe step, when an instruction can issue, and what an issue
leaves unchanged.
-/
namespace Sys2Proof

open Machine

/-- An outcome that is a next state. -/
def Goes (o : Host.Outcome State Fault Refusal) : Prop := ∃ t, o = .next t

/-- A state from which the next step goes on. -/
def SafeAt (s : State) : Prop := Goes (step s)

/-- The PC set `c` stands in the latch and can issue an instruction that uses some mask and register fields: its lanes are
lanes of a resident group, the checks of R69 that belong to the fields pass, and nothing that the fields name is
outstanding (R62, R113). -/
structure CanIssue (s : State) (c : Ctx) (masks : List (Fin 16)) (uses : List Use) : Prop where
  latched : s.ctx? = some c
  resident : (s.group? c.core c.gid).isSome = true
  alive : c.set.all (fun l => ((s.grp c).lane l).live) = true
  legal : uses.any Use.illegal = false
  maskOk : masks.all (fun m => decide (m.val < 12)) = true
  inside : uses.any (Use.outside (s.grp c).winsize) = false
  allowed : (decide (c.mode = .u) && masks.any (fun m => decide (10 ≤ m.val))) = false
  settled : uses.any (s.owes c) = false
  streamed : uses.any (s.streams c) = false
  tags : (s.grp c).tagsBusy uses = none
  parity : c.act.filter ((s.grp c).parityFails uses) = []

namespace Machine

/-- A group without what every issue counts: its sequence number, its turn, the clk of its last issue, and the lanes passed over since
the last event. -/
def Group.uncounted (x : Group) : Group := { x with seqno := 0, current := 0, turn := 0, skip := 0, lastIssue := none }

/-- The issuing lanes of a group on their way: they wait for nothing, have acquired the copy tags read, and stand at the
next instruction. -/
def Group.moved (x : Group) (c : Ctx) (uses : List Use) : Group :=
  ((x.onLanes c.set fun _ k => { k with wait := .none }).acquireTags uses c.act).onLanes c.set fun _ k =>
    { k with pc := c.next, startCheck := false, again := none }

/-- The group of the issuing set replaced. -/
def State.putGrp (s : State) (c : Ctx) (y : Group) : State := s.setGroup c.core c.gid y

/-- What an instruction finds when its effect begins: the issuing lanes wait for nothing and have acquired the tags read. -/
def State.begun (s : State) (c : Ctx) (uses : List Use) : State :=
  s.onGrp c fun x => (x.onLanes c.set fun _ k => { k with wait := .none }).acquireTags uses c.act

end Machine

/-- `t` is `s` but for what every issue counts (R53, R83, R85, R277): the sequence number, turn and last issue of the issuing group, its
core's credits and their clk, the latch, and the marks of lanes passed over. All else is the same: other groups, every core, cluster and die, memory and its
metadata, every access and request, every register of the package. -/
structure Follows (s t : State) (c : Ctx) : Prop where
  group : (t.grp c).uncounted = (s.grp c).uncounted
  seqno : (t.grp c).seqno = ((s.grp c).seqno + 1) % 2 ^ 32
  others : ∀ core g, (core, g) ≠ (c.core, c.gid) → t.group? core g = (s.group? core g).map fun x => { x with skip := 0 }
  cores : ∀ core, { t.core core with groups := [], credits := (s.core core).credits, creditClk := (s.core core).creditClk } =
      { s.core core with groups := [] } ∧
    (core ≠ c.core → (t.core core).credits = (s.core core).credits ∧ (t.core core).creditClk = (s.core core).creditClk)
  rest : { t with cores := [], cur := none } = { s with cores := [], cur := none }

/-- The words of V registers that a destination field names in some lanes. -/
def destWords (n : Nat) (wide : Bool) (ls : List Nat) : List Nat :=
  ls.map (fun l => 32 * n + l) ++ if wide then ls.map (fun l => 32 * (n + 1) + l) else []

/-- The registers of group `y` are those of `x` with a destination of 32 or 64 bits written in the active lanes (R54, R62): a V
register in each of them; an S register with the value of the lowest one; NONE nothing. Every other word is as before. -/
def Wrote (x y : Group) (c : Ctx) (d : Operand) (wide : Bool) (val : Nat → Nat) : Prop :=
  match d with
  | .v n =>
    (∀ l ∈ c.act, sget y.v (32 * n.val + l) = BitVec.ofNat 32 (val l)) ∧
    (wide = true → ∀ l ∈ c.act, sget y.v (32 * (n.val + 1) + l) = BitVec.ofNat 32 (val l / 2 ^ 32)) ∧
    (∀ k, k ∉ destWords n.val wide c.act → sget y.v k = sget x.v k) ∧ y.s = x.s
  | .s n =>
    (c.act ≠ [] → sget y.s n.val = BitVec.ofNat 64 (if wide then val c.low else val c.low % 2 ^ 32)) ∧
    (c.act = [] → y.s = x.s) ∧ (∀ k, k ≠ n.val → sget y.s k = sget x.s k) ∧ y.v = x.v
  | _ => y.v = x.v ∧ y.s = x.s

/-- The instruction completes wherever it can issue and writes `val` to its destination; its set moves on, and all else is
unchanged but for `also`, what else it changes in its group. -/
def WritesReg (i : Instr) (masks : List (Fin 16)) (uses : List Use) (d : Operand) (wide : Bool)
    (val : Group → Ctx → Nat → Nat) (also : Ctx → Group → Group := fun _ x => x) : Prop :=
  ∀ s c, CanIssue s c masks uses → ∃ t, exec i s = .next t ∧
    Wrote (s.grp c) (t.grp c) c d wide (val (s.grp c) c) ∧
    Follows (s.putGrp c { also c ((s.grp c).moved c uses) with
      v := (t.grp c).v, s := (t.grp c).s, badV := (t.grp c).badV }) t c

/-- The instruction completes wherever it can issue and the state that it finds meets `ok`; what it leaves is `eff` of what it
finds, and all else is unchanged. -/
def Completes (i : Instr) (masks : List (Fin 16)) (uses : List Use) (ok : State → Ctx → Prop) (eff : State → Ctx → State) :
    Prop :=
  ∀ s c, CanIssue s c masks uses → ok (s.begun c uses) c →
    ∃ t, exec i s = .next t ∧ Follows (eff (s.begun c uses) c) t c

/-- The same of an instruction whose lanes may wait or end: what it leaves is `eff` of what it finds, and the end of an issue,
which may complete a barrier or show a deadlock (R89, R92). -/
def CompletesWaiting (i : Instr) (masks : List (Fin 16)) (uses : List Use) (ok : State → Ctx → Prop)
    (eff : State → Ctx → State) : Prop :=
  ∀ s c, CanIssue s c masks uses → ok (s.begun c uses) c → exec i s = .next ((eff (s.begun c uses) c).finish c)

/-- An event happens: its state is `eff` of what it finds, every lane passed over is looked at again (log 1). -/
def Happens (i : Instr) (ok : State → Prop) (eff : State → State) : Prop :=
  ∀ s, ok s → exec i s = .next (eff s).clearSkip

end Sys2Proof
end

