-- ==== Sys2Proof/Certificates/Slice0/Obligations.lean ====
section
/-!
DEFINITION. What is claimed of the model: for every instruction that and how it completes, with what it leaves unchanged; where it
traps; what a step does; encoding; and what holds after every step. A claim over several families names its parts.
-/

open Sys2Proof Sys2Proof.Machine

/-- Moves and bit operations (R116, R121 to R125): each completes wherever it can issue, writes its result and changes nothing
else. A 64-bit form reads and writes 64 bits; that C of SEL.64 and the count B of SHL.64, SHR.64, SAR.64 and ROT.64 are 32-bit operands
is the model's choice (log entry 65). -/
def Obligations.MoveAndBitResults : Prop :=
  (∀ f : F3, let w := f.fn == 1
    WritesReg (.mov f) [] [dstW w f.d, srcW w f.a] f.d w fun x _ l => x.rd f.a l w) ∧
  (∀ f : FI, WritesReg (.movi f) [] [dst32 f.d] f.d false fun _ _ _ => f.imm.toNat) ∧
  (∀ f : FI, WritesReg (.moviSx f) [] [dst64 f.d] f.d true fun _ _ _ => (f.imm.signExtend 64).toNat) ∧
  (∀ f : FI, WritesReg (.moviHi f) [] [dst64 f.d] f.d true fun x _ l => x.rd64 f.d l % 2 ^ 32 + f.imm.toNat * 2 ^ 32) ∧
  (∀ f : F3, let w := f.fn == 1
    WritesReg (.sel f) [] [dstW w f.d, srcW w f.a, srcW w f.b, src32 f.c] f.d w fun x _ l =>
      if x.rd32 f.c l ≠ 0 then x.rd f.a l w else x.rd f.b l w) ∧
  (∀ f : FI, let w := f.fn == 0
    WritesReg (.lea f) [] [dstW w f.d, srcW w f.a] f.d w fun x _ l =>
      if w then wrap 64 (x.rd64 f.a l + f.imm.toInt) else (x.rd32 f.a l + f.imm.toNat) % 2 ^ 32) ∧
  (∀ f : F3, let w := f.fn == 1
    let uses := [dstW w f.d, srcW w f.a, srcW w f.b]
    WritesReg (.and f) [] uses f.d w (fun x _ l => x.rd f.a l w &&& x.rd f.b l w) ∧
    WritesReg (.or f) [] uses f.d w (fun x _ l => x.rd f.a l w ||| x.rd f.b l w) ∧
    WritesReg (.xor f) [] uses f.d w (fun x _ l => x.rd f.a l w ^^^ x.rd f.b l w) ∧
    WritesReg (.andn f) [] uses f.d w
      (fun x _ l => x.rd f.a l w &&& ((if w then 2 ^ 64 else 2 ^ 32) - 1 - x.rd f.b l w))) ∧
  (∀ f : F3, let w := f.md.getLsbD 0
    WritesReg (.btab f) [] [dstW w f.d, srcW w f.a, srcW w f.b, srcW w f.c] f.d w fun x _ l =>
      btabBits f.fn.toNat (x.rd f.a l w) (x.rd f.b l w) (x.rd f.c l w) (if w then 64 else 32)) ∧
  (∀ f : F3, let w := f.fn == 1
    let n := if w then 64 else 32
    let uses := [dstW w f.d, srcW w f.a, src32 f.b]
    WritesReg (.shl f) [] uses f.d w (fun x _ l => x.rd f.a l w * 2 ^ (x.rd32 f.b l % 256) % 2 ^ n) ∧
    WritesReg (.shr f) [] uses f.d w (fun x _ l => x.rd f.a l w / 2 ^ (x.rd32 f.b l % 256)) ∧
    WritesReg (.sar f) [] uses f.d w
      (fun x _ l => wrap n (sextInt (x.rd f.a l w) n / (2 ^ (x.rd32 f.b l % 256) : Int))) ∧
    WritesReg (.rot f) [] uses f.d w (fun x _ l => let r := x.rd32 f.b l % 256 % n
      x.rd f.a l w * 2 ^ r % 2 ^ n + x.rd f.a l w / 2 ^ (n - r))) ∧
  (∀ f : F3, let uses := [dst32 f.d, src32 f.a, src32 f.b, src32 f.c]
    WritesReg (.bfe f) [] uses f.d false (fun x _ l =>
      let p := x.rd32 f.b l % 256
      let m := min (x.rd32 f.c l % 256) (32 - p)
      let v := x.rd32 f.a l / 2 ^ p % 2 ^ m
      if m = 0 then 0 else if f.fn == 1 then wrap 32 (sextInt v m) else v) ∧
    WritesReg (.bfi f) [] uses f.d (Operand.isS f.d) (fun x _ l =>
      let p := x.rd32 f.b l % 256
      let m := min (x.rd32 f.c l % 256) (32 - p)
      if m = 0 then x.rd f.d l (Operand.isS f.d) else setBits (x.rd32 f.d l) (p + m - 1) p (x.rd32 f.a l)) ∧
    WritesReg (.bysel f) [] uses f.d false (fun x _ l =>
      let pool := x.rd32 f.a l + 2 ^ 32 * x.rd32 f.b l
      let k := x.rd32 f.c l
      byselByte pool (k % 256) + 2 ^ 8 * byselByte pool (k / 2 ^ 8 % 256) + 2 ^ 16 * byselByte pool (k / 2 ^ 16 % 256) +
        2 ^ 24 * byselByte pool (k / 2 ^ 24 % 256))) ∧
  (∀ f : F3, let w := f.fn == 1
    WritesReg (.popc f) [] [dst32 f.d, srcW w f.a] f.d false (fun x _ l => onesIn (x.rd f.a l w) 64) ∧
    WritesReg (.clz f) [] [dst32 f.d, srcW w f.a] f.d false (fun x _ l =>
      let n := if w then 64 else 32
      if x.rd f.a l w = 0 then n else n - 1 - (x.rd f.a l w).log2) ∧
    WritesReg (.brev f) [] [dstW w f.d, srcW w f.a] f.d w (fun x _ l => reverseBits (x.rd f.a l w) (if w then 64 else 32)))

/-- Integer arithmetic (R115, R117): each element of D is the exact integer result, saturated where MOD asks for it and then
narrowed; nothing else changes. -/
def Sys2Proof.IntegerArithmeticResults : Prop :=
  ∀ f : F3,
    let t := intTy f.ty
    let u (o : Operand) := srcW t.wide o
    let two (sat : Bool) (op : Int → Int → Int) : Group → Ctx → Nat → Nat := fun x _ l =>
      intOp t sat (fun a b _ => op a b) (x.rdInt t f.a l) (x.rdInt t f.b l) (x.rdInt t f.c l)
    let sat := f.md.getLsbD 0
    let uses := [dstW t.wide f.d, u f.a, u f.b]
    WritesReg (.iadd f) [] uses f.d t.wide (two sat fun a b => a + b) ∧
    WritesReg (.isub f) [] uses f.d t.wide (two sat fun a b => a - b) ∧
    WritesReg (.imul f) [] uses f.d t.wide (two false fun a b => a * b) ∧
    WritesReg (.imulh f) [] uses f.d t.wide (two false fun a b => a * b / (2 ^ t.w : Int)) ∧
    WritesReg (.imin f) [] uses f.d t.wide (two false fun a b => min a b) ∧
    WritesReg (.imax f) [] uses f.d t.wide (two false fun a b => max a b) ∧
    WritesReg (.iabs f) [] [dstW t.wide f.d, u f.a] f.d t.wide (two sat fun a _ => (a.natAbs : Int)) ∧
    WritesReg (.imad f) [] (uses ++ [u f.c]) f.d t.wide (fun x _ l =>
      intOp t false (fun a b e => a * b + e) (x.rdInt t f.a l) (x.rdInt t f.b l) (x.rdInt t f.c l))

/-- Addition and subtraction with carry (R118): D receives the low bits, PD the carry or the borrow; with ADDC and SUBB the old PD
comes in. Predicates of inactive lanes and all other predicates stay. -/
def Obligations.CarryResults : Prop :=
  ∀ f : F3,
    let t := intTy f.ty
    let uses := [dstW t.wide f.d, srcW t.wide f.a, srcW t.wide f.b]
    let r (sub useIn : Bool) (x : Group) (l : Nat) : Int :=
      let cin : Int := if useIn && (x.lane l).getPred f.pd then 1 else 0
      if sub then (x.rd f.a l t.wide : Int) - x.rd f.b l t.wide - cin else (x.rd f.a l t.wide : Int) + x.rd f.b l t.wide + cin
    let holds (i : Instr) (sub useIn : Bool) : Prop :=
      WritesReg i [] uses f.d t.wide (fun x _ l => wrap t.w (r sub useIn x l)) fun c x =>
        x.wrPred c f.pd fun l => if sub then decide (r sub useIn x l < 0) else decide (2 ^ t.w ≤ r sub useIn x l)
    holds (.iaddcAdd f) false false ∧ holds (.iaddcAddc f) false true ∧ holds (.iaddcSub f) true false ∧
    holds (.iaddcSubb f) true true

/-- Comparisons and the predicate word (R119, R120): they write predicates of active lanes, or D from them, and nothing else. -/
def Sys2Proof.PredicateResults : Prop :=
  (∀ f : F3, let t := intTy f.ty
    WritesReg (.isetp f) [] [srcW t.wide f.a, srcW t.wide f.b] .none false (fun _ _ _ => 0) fun c x =>
      x.wrPred c f.pd fun l =>
        combinePred f.fn ((x.lane l).getPred f.pd)
          (condHolds f.md.toNat (compare (t.val (x.rd f.a l t.wide) 0) (t.val (x.rd f.b l t.wide) 0)))) ∧
  (∀ f : F3, WritesReg (.pset f) [] [src32 f.a] .none false (fun _ _ _ => 0) fun c x =>
    x.onLanes c.act fun l k => { k with pred := BitVec.ofNat 16 (x.rd32 f.a l) ||| 0x8000#16 }) ∧
  (∀ f : F3, WritesReg (.psetNz f) [] [src32 f.a] .none false (fun _ _ _ => 0) fun c x =>
    x.wrPred c f.pd fun l => x.rd32 f.a l != 0) ∧
  (∀ f : F3, WritesReg (.pmov f) [] [dst32 f.d] f.d false fun x _ l => ((x.lane l).pred ||| 0x8000#16).toNat)

/-- Shuffles and broadcasts (R126, R127): the source lane counts only if it lies in the segment and is active; PD says so. That B
of BCAST.W64 is a 32-bit operand is the model's choice (log entry 65). -/
def Obligations.CrossLaneResults : Prop :=
  (∀ f : F3,
    let n := 2 ^ f.md.toNat
    let uses := [dst32 f.d, src32 f.a, src32 f.b]
    let holds (i : Instr) (src : Nat → Nat → Nat × Bool) : Prop :=
      let pick (x : Group) (c : Ctx) (l : Nat) : Nat × Bool :=
        let (t, ok) := src l (x.rd32 f.b l)
        if ok && c.act.contains t then (x.rd32 f.a t, true) else (x.rd32 f.a l, false)
      WritesReg i [] uses f.d false (fun x c l => (pick x c l).1) fun c x => x.wrPred c f.pd fun l => (pick x c l).2
    holds (.shflIdx f) (fun l b => (l - l % n + b % n, true)) ∧
    holds (.shflUp f) (fun l b => (l - b, decide (b ≤ l % n))) ∧
    holds (.shflDown f) (fun l b => (l + b, decide (b < n - l % n))) ∧
    holds (.shflXor f) (fun l b => (l ^^^ (b % n), true))) ∧
  (∀ f : F3, let w := f.md.getLsbD 0
    let holds (i : Instr) (uses : List Use) (src : Ctx → Group → Nat) : Prop :=
      ∀ s c, CanIssue s c [] uses → ∃ t, exec i s = .next t ∧
        let a := src c (s.grp c)
        (a ∈ c.act → Wrote (s.grp c) (t.grp c) c f.d w fun _ => (s.grp c).rd f.a a w) ∧
        (a ∉ c.act → (t.grp c).v = (s.grp c).v ∧ (t.grp c).s = (s.grp c).s) ∧
        Follows (s.putGrp c { ((s.grp c).moved c uses).wrPred c f.pd (fun _ => decide (a ∈ c.act)) with
          v := (t.grp c).v, s := (t.grp c).s, badV := (t.grp c).badV }) t c
    holds (.bcast f) [dstW w f.d, srcW w f.a, src32 f.b] (fun c x => x.rd32 f.b c.low % 32) ∧
    holds (.bcastFirst f) [dstW w f.d, srcW w f.a] fun c _ => c.low)

/-- Votes, elections and reads of masks (R96, R97, R99): one value of the set, or of a mask, for every active lane. -/
def Sys2Proof.VoteAndMaskReads : Prop :=
  ∀ f : FK,
    let ballot (x : Group) (c : Ctx) : Nat := maskOf (c.act.filter fun l => x.rd32 f.a l != 0)
    let vote (i : Instr) (r : Group → Ctx → Nat) : Prop := WritesReg i [] [dst32 f.d, src32 f.a] f.d false fun x c _ => r x c
    vote (.voteBallot f) ballot ∧
    vote (.voteAll f) (fun x c => (ballot x c == maskOf c.act).toNat) ∧
    vote (.voteAny f) (fun x c => (ballot x c != 0).toNat) ∧
    vote (.voteEq f) (fun x c => (c.act.all fun l => x.rd32 f.a l == x.rd32 f.a c.low).toNat) ∧
    WritesReg (.elect f) [] [dst32 f.d] f.d false (fun _ c l => (c.act.head? == some l).toNat) ∧
    WritesReg (.electIn f) [f.mask] [dst32 f.d] f.d false
      (fun x c l => ((c.act.filter fun l => (x.mask f.mask.val).enrol.testBit l).head? == some l).toNat) ∧
    WritesReg (.mget f) [f.mask] [dst32 f.d] f.d false (fun x _ _ => (x.mask f.mask.val).enrol) ∧
    WritesReg (.mgetArr f) [f.mask] [dst32 f.d] f.d false (fun x _ _ => (x.mask f.mask.val).arr) ∧
    WritesReg (.mgetLive f) [] [dst32 f.d] f.d false (fun x _ _ => maskOf x.live)

/-- The flags of the active lanes merged into FPSTAT (R135). -/
def Sys2Proof.mergedFlags (r : Group → Nat → Nat × Flags) (c : Ctx) (x : Group) : Group :=
  x.mergeFlags (c.act.foldl (fun a l => a.or (r x l).2) .none)

/-- A floating-point result in D with its flags merged into FPSTAT (R135, R138). -/
def Sys2Proof.WritesFloat (i : Instr) (uses : List Use) (d : Operand) (wide : Bool) (r : Group → Nat → Nat × Flags) : Prop :=
  WritesReg i [] uses d wide (fun x _ l => (r x l).1) (mergedFlags r)

/-- Scalar floating-point arithmetic (R134 to R139, R142): the exact value rounded once under mode(), through both flushes; the
flags of the active lanes are merged into FPSTAT; nothing else changes. That FRND of a nonzero operand that rounds to zero raises NX and
not UF is the model's choice (log entry 62). -/
def Sys2Proof.FloatScalarResults : Prop :=
  ∀ f : F3,
    let t := fmtOf f.ty
    let one := [dst32 f.d, src32 f.a]
    let two := [dst32 f.d, src32 f.a, src32 f.b]
    let rounded (op : Rm → Machine.Num → Machine.Num → Machine.Num → Machine.Num) (x : Group) (l : Nat) : Nat × Flags :=
      let rm := x.rmode f.rm f.md
      deliver x.ftz t rm (op rm (x.rdFl t f.a l) (x.rdFl t f.b l) (x.rdFl t f.c l))
    WritesFloat (.fadd f) two f.d false (rounded fun rm a b _ => sumNum rm [a, b]) ∧
    WritesFloat (.fsub f) two f.d false (rounded fun rm a b _ => sumNum rm [a, b.neg]) ∧
    WritesFloat (.fmul f) two f.d false (rounded fun _ a b _ => a.mul b) ∧
    WritesFloat (.ffma f) (two ++ [src32 f.c]) f.d false (rounded fun rm a b e =>
      sumNum rm [if f.md.getLsbD 0 then (a.mul b).neg else a.mul b, if f.md.getLsbD 1 then e.neg else e]) ∧
    WritesFloat (.fmin f) two f.d false (fun x l => minMax t false (x.rdFl t f.a l) (x.rdFl t f.b l)) ∧
    WritesFloat (.fmax f) two f.d false (fun x l => minMax t true (x.rdFl t f.a l) (x.rdFl t f.b l)) ∧
    WritesFloat (.frnd f) one f.d false (fun x l => roundIntegral t (x.rmode f.rm f.md) (x.rdFl t f.a l)) ∧
    WritesFloat (.fscale f) two f.d false (fun x l =>
      deliver x.ftz t (x.rmode f.rm f.md) ((x.rdFl t f.a l).scale (sextInt (x.rd32 f.b l) 32)))

/-- Packed pairs (R143): each half of D from the halves of the operands, the flags of both merged. -/
def Sys2Proof.PackedFloatResults : Prop :=
  ∀ f : F3,
    let t := fmtOf f.ty
    let two := [dst32 f.d, src32 f.a, src32 f.b]
    let pair (op : Bool → Rm → Machine.Num → Machine.Num → Machine.Num → Nat × Flags) (x : Group) (l : Nat) : Nat × Flags :=
      let e (i : Nat) : Nat × Flags := op x.ftz (x.rmode f.rm f.md) (x.rdHalf t f.a l i) (x.rdHalf t f.b l i) (x.rdHalf t f.c l i)
      ((e 0).1 + 2 ^ 16 * (e 1).1, (e 0).2.or (e 1).2)
    WritesFloat (.hadd2 f) two f.d false (pair fun z rm a b _ => deliver z t rm (sumNum rm [a, b])) ∧
    WritesFloat (.hmul2 f) two f.d false (pair fun z rm a b _ => deliver z t rm (a.mul b)) ∧
    WritesFloat (.hfma2 f) (two ++ [src32 f.c]) f.d false (pair fun z rm a b e => deliver z t rm (sumNum rm
      [if f.md.getLsbD 0 then (a.mul b).neg else a.mul b, if f.md.getLsbD 1 then e.neg else e])) ∧
    WritesFloat (.hmnx2Min f) two f.d false (pair fun _ _ a b _ => minMax t false a b) ∧
    WritesFloat (.hmnx2Max f) two f.d false (pair fun _ _ a b _ => minMax t true a b)

/-- Dot products and reductions over the lanes of the set (R144, R145): one rounding of the exact sum; NaN values take no part in
a minimum or maximum, and where all are NaN the canonical NaN is delivered and NV raised. The sign of an exact zero of DOT2, that of
exact sums, is the model's choice (log entry 10). -/
def Sys2Proof.DotAndLaneReductions : Prop :=
  ∀ f : F3,
    let t := fmtOf f.ty
    let one := [dst32 f.d, src32 f.a]
    WritesFloat (.dot2 f) [dst32 f.d, src32 f.a, src32 f.b, src32 f.c] f.d false (fun x l =>
      let rm := x.rmode f.rm f.md
      deliver x.ftz fp32 rm (sumNum rm [(x.rdHalf t f.a l 0).mul (x.rdHalf t f.b l 0),
        (x.rdHalf t f.a l 1).mul (x.rdHalf t f.b l 1), x.rdFl fp32 f.c l])) ∧
    (let sum (x : Group) (c : Ctx) : Nat × Flags :=
      let rm := x.rmode f.rm f.md
      deliver x.ftz fp32 rm (sumNum rm (c.act.map fun l => x.rdFl fp32 f.a l))
     WritesReg (.redlAdd f) [] one f.d false (fun x c _ => (sum x c).1) fun c x =>
      if c.act.isEmpty then x else x.mergeFlags (sum x c).2) ∧
    (let best (isMax : Bool) (x : Group) (c : Ctx) : Nat × Flags :=
      match (c.act.map fun l => x.rdFl fp32 f.a l).filter fun v => decide (v ≠ .nan) with
      | [] => (fp32.canon, .invalid)
      | v :: r => fp32.convert .rne (r.foldl (fun a b => if isMax then a.maxNum b else a.minNum b) v)
     let holds (i : Instr) (isMax : Bool) : Prop :=
      WritesReg i [] one f.d false (fun x c _ => (best isMax x c).1) fun c x =>
        if c.act.isEmpty then x else x.mergeFlags (best isMax x c).2
     holds (.redlMax f) true ∧ holds (.redlMin f) false)

/-- Comparison, classification and conversion (R140, R141, R146, R147, R150, R151). What a constant operand of CVT and of UNPACK stands
for is the model's choice (log entry 61). -/
def Sys2Proof.FloatCompareAndConvert : Prop :=
  ∀ f : F3,
    let t := fmtOf f.ty
    let one := [dst32 f.d, src32 f.a]
    let two := [dst32 f.d, src32 f.a, src32 f.b]
    (let r (x : Group) (l : Nat) : Bool × Bool := fcompare f.md (x.rdFl t f.a l) (x.rdFl t f.b l)
     WritesReg (.fsetp f) [] [src32 f.a, src32 f.b] .none false (fun _ _ _ => 0) fun c x =>
      (x.wrPred c f.pd fun l => combinePred f.fn ((x.lane l).getPred f.pd) (r x l).1).mergeFlags
        (if c.act.any fun l => (r x l).2 then .invalid else .none)) ∧
    WritesReg (.fclass f) [] one f.d false (fun x _ l => classMask t (x.rdCode t f.a l)) ∧
    WritesFloat (.cvt f) one f.d false (fun x l =>
      let v : Machine.Num := match f.a with
        | .const n => let i : Int := (n.val : Int) - 127; .fin (decide (i < 0)) i.natAbs 0
        | _ => cvtValue (f.fn.toNat % 16) (x.rd32 f.a l)
      cvtResult x.ftz (f.fn.toNat / 16) (x.rmode f.rm f.md) (flushIn x.ftz v)) ∧
    (let n := intTy f.ty
     let ff := cvtiFmt f.md
     WritesFloat (.cvtiF2i f) [dstW n.wide f.d, src32 f.a] f.d n.wide (fun x l =>
      toInteger n.w n.signed (x.rmode f.rm f.md) (x.rdFl ff f.a l)) ∧
     WritesFloat (.cvtiI2f f) [dst32 f.d, srcW n.wide f.a] f.d false (fun x l =>
      let v := n.val (x.rd f.a l n.wide) 0
      ff.convert (x.rmode f.rm f.md) (.fin (decide (v < 0)) v.natAbs 0))) ∧
    (let wide (i : Instr) (g : Fmt) : Prop := WritesFloat i two f.d false fun x l =>
      let a := deliver x.ftz g (x.rmode f.rm f.md) (x.rdFl fp32 f.a l)
      let b := deliver x.ftz g (x.rmode f.rm f.md) (x.rdFl fp32 f.b l)
      (b.1 * 2 ^ 16 + a.1, a.2.or b.2)
     wide (.packH16 f) fp16 ∧ wide (.packB16 f) bf16) ∧
    (let narrow (i : Instr) (g : Fmt) : Prop := WritesFloat i two f.d false fun x l =>
      let h := if f.md.getLsbD 0 then 16 else 0
      let a := g.convert (x.rmode f.rm f.md) (x.rdFl fp32 f.a l)
      let b := g.convert (x.rmode f.rm f.md) (x.rdFl fp32 f.b l)
      (setBits (x.rd32 f.d l) (h + 15) h (a.1 + 256 * b.1), a.2.or b.2)
     narrow (.packE4m3 f) e4m3 ∧ narrow (.packE5m2 f) e5m2) ∧
    WritesFloat (.unpack f) one f.d false (fun x l =>
      let (g, w) := unpackFmt f.fn.toNat
      deliver x.ftz fp32 .rne (match f.a with
        | .const _ => x.rdF g f.a l
        | _ => g.value (x.rd32 f.a l / 2 ^ (w * (f.md.toNat % 8)) % 2 ^ w)))

/-- The function units (R46, R47, R152, R153): the value that the rules define for the flushed operand, whatever FPCTL's rounding
mode, through the output flush. -/
def Sys2Proof.FunctionUnitResults : Prop :=
  ∀ f : F3,
    let t := fmtOf f.ty
    let holds (i : Instr) (fn : Func) : Prop :=
      WritesFloat i [dst32 f.d, src32 f.a] f.d false fun x l => flushOut x.ftz t (fn.eval t (x.rdFl t f.a l))
    holds (.frcp f) .rcp ∧ holds (.frsq f) .rsq ∧ holds (.fsqrt f) .sqrt ∧ holds (.fexp2 f) .exp2 ∧ holds (.flog2 f) .log2 ∧
    holds (.ftanh f) .tanh ∧ holds (.fsigm f) .sigm ∧ holds (.fsin f) .sin ∧ holds (.fcos f) .cos ∧ holds (.ferf f) .erf ∧
    WritesFloat (.fexpm f) [dst32 f.d, src32 f.a, src32 f.b, src32 f.c] f.d false (fun x l =>
      flushOut x.ftz t (fexpm t (x.rdFl t f.a l) (x.rdFl t f.b l) (x.rdFl t f.c l)))

/-- Blocks of 32 elements (R148, R149): QMX quantises A to the image in D and the scale in C, DQMX reads the image in A with the
scale in B; all inputs are read first, the flags of the active lanes are merged. That QMX writes its scale
after its elements (log entry 63) and that DQMX flushes only its result (log entry 10) is the model's choice. -/
def Sys2Proof.BlockConversions : Prop :=
  ∀ f : F3,
    let fmt := f.md.toNat % 8
    (let uses := [{ dstRun f.d (blockRegs fmt) false with noneOk := false }, { srcRun f.a 32 false with noneOk := false }, dst32 f.c]
     let r (x : Group) (l : Nat) : Nat × List Nat × Flags :=
      quantise fmt (x.rmode f.rm f.md)
        ((List.range 32).map fun i => flushIn x.ftz (fp32.value (x.rdRegs f.a l 32 / 2 ^ (32 * i) % 2 ^ 32)))
     Completes (.qmx f) [] uses (fun _ _ => True) fun s c => (s.advance c).onGrp c fun x =>
      ((c.act.foldl (fun y l => y.putRegs f.d l (packElems (elemBits fmt) (r x l).2.1) (blockRegs fmt)) x).wr c f.c false
        fun l => (r x l).1).mergeFlags (c.act.foldl (fun a l => a.or (r x l).2.2) .none)) ∧
    (let uses := [{ dstRun f.d 32 false with noneOk := false }, { srcRun f.a (blockRegs fmt) false with noneOk := false }, src32 f.b]
     let r (x : Group) (l : Nat) : List (Nat × Flags) :=
      (List.range 32).map fun i => deliver x.ftz fp32 (x.rmode f.rm f.md)
        (scaledValue fmt (x.rd32 f.b l % 256) (elemAt (elemBits fmt) (x.rdRegs f.a l (blockRegs fmt)) i))
     Completes (.dqmx f) [] uses (fun _ _ => True) fun s c => (s.advance c).onGrp c fun x =>
      (c.act.foldl (fun y l => y.putRegs f.d l (packElems 32 ((r x l).map Prod.fst)) 32) x).mergeFlags
        (c.act.foldl (fun a l => (r x l).foldl (fun a e => a.or e.2) a) .none))

/-- NOP, YIELD and YIELD.AGE (R93, R102): the set goes on; YIELD ends the turn, YIELD.AGE gives the group the core's next creation
stamp; with no active lane neither does anything more. -/
def Sys2Proof.NopAndYield : Prop :=
  Completes .nop [] [] (fun _ _ => True) (fun s c => s.advance c) ∧
  CompletesWaiting .yield [] [] (fun _ _ => True) (fun s c =>
    (s.advance c).onGrp c fun x => if c.act.isEmpty then x else x.yieldTurn) ∧
  (∀ (x : Group) (t : List Nat), x.nextSet x.current = some t → x.current ∉ t →
    x.yieldTurn = { x with current := t.headD 0, turn := 0 }) ∧
  Completes .yieldAge [] [] (fun _ c => c.act ≠ []) (fun s c =>
    ((s.advance c).onCore c.core fun k => { k with counter := k.counter + 1 }).onGrp c fun x =>
      { x with stamp := (s.core c.core).counter }) ∧
  Completes .yieldAge [] [] (fun _ c => c.act = []) fun s c => s.advance c

/-- The fields a transfer reads. -/
def Sys2Proof.transferUses (f : FB) : List Use := if f.kind then [src64 f.tgtr] else []

/-- Where a lane of the issuing set goes (R58): the sum of the line address and the literal, or bits [52:0] of a register. -/
def Sys2Proof.transferTarget (f : FB) (s : State) (c : Ctx) (l : Nat) : Pc :=
  if f.kind then BitVec.ofNat 53 ((s.grp c).rd64 f.tgtr l)
  else BitVec.ofNat 53 (wrap 53 ((lineOf c.pc : Int) + 64 * f.lofs.toInt + 4 + 12 * f.slot.toNat))

/-- BRA, BRX, RET and CALL (R48, R50, R58, R94) where no target fails its check: active lanes stand at their targets, the others at
the next instruction; CALL writes the address of the next instruction to its link. -/
def Obligations.TransfersReachTheirTargets : Prop :=
  ∀ f : FB,
    let holds (i : Instr) (lnk : List Use) (eff : Ctx → Group → Group) : Prop :=
      ∀ s c, CanIssue s c [] (lnk ++ transferUses f) → (∀ l ∈ c.act, s.target c (transferTarget f s c l) = .ok) →
        ∃ t, exec i s = .next t ∧
          Follows (((s.begun c (lnk ++ transferUses f)).advance c).onGrp c fun x =>
            (eff c x).onLanes c.act fun l k => { k with pc := transferTarget f s c l }) t c
    holds (.bra f) [] (fun _ x => x) ∧ holds (.brx f) [] (fun _ x => x) ∧ holds (.ret f) [] (fun _ x => x) ∧
    holds (.call f) [{ dst64 f.lnk with noneOk := false }] (fun c x => x.wr c f.lnk true fun _ => c.next.toNat)

/-- A transfer whose targets fail a check (R48, R50, R69, R94, R275): lanes with a misaligned target trap first; then a line that cannot
be translated stalls the set at the transfer, with one record for the lanes that go to its page; then lanes trap whose target's line
is uncorrectable or whose slot is no branch target. A trap has the transfer as return PC and the target as TVAL; the other lanes stay at
the transfer, and nothing is linked. A line whose translation has to wait, for a slot or behind an invalidation, makes the set issue the
transfer again (R267, R281, R283). That the target is looked at before the transfer has any effect, that the set stalls at the transfer and
that an uncorrectable line is the machine check of the transfer are the model's choice (log entry 21), as are each lane's own target and
cause (log entry 9). -/
def Sys2Proof.FailingTransfersTrap : Prop :=
  ∀ f : FB,
    let stopped (i : Instr) (lnk : List Use) : Prop :=
      ∀ s c, CanIssue s c [] (lnk ++ transferUses f) →
        let goal (l : Nat) : Pc := transferTarget f s c l
        let trapped (kind : Nat → Nat) (ls : List Nat) : State :=
          (s.enterTraps c.core c.gid (fun l => ⟨kind l, 0, c.pc, (goal l).toNat, 0, none⟩) ls).finish c
        let odd := c.act.filter fun l => s.target c (goal l) == .trap 1
        let bad := c.act.filter fun l => s.target c (goal l) != .ok
        (odd ≠ [] → exec i s = .next (trapped (fun _ => 1) odd)) ∧
        (odd = [] → (∃ l ∈ c.act, s.target c (goal l) = .wait) → exec i s = .next (s.skipSet c)) ∧
        (odd = [] → (∀ l ∈ c.act, s.target c (goal l) ≠ .wait) → ∀ l e, c.act.find? (fun l => match s.target c (goal l) with | .fault _ => true | _ => false) = some l →
          s.target c (goal l) = .fault e →
          exec i s = .next (s.fetchFault c (goal l).toNat
            (c.act.filter fun m => (lineOf (goal m)) / 8192 == lineOf (goal l) / 8192) e)) ∧
        (odd = [] → (∀ l ∈ c.act, s.target c (goal l) ≠ .wait ∧ ∀ e, s.target c (goal l) ≠ .fault e) → bad ≠ [] →
          exec i s = .next (trapped (fun l => if s.target c (goal l) = .trap 23 then 23 else 3) bad))
    stopped (.bra f) [] ∧ stopped (.brx f) [] ∧ stopped (.ret f) [] ∧
    stopped (.call f) [{ dst64 f.lnk with noneOk := false }]

/-- JOIN, LEAVE and the instructions that give a mask a new enrolment (R87, R95, R96, R98), where no submission that they bring
about must wait (R182). With no active lane the latter change nothing. -/
def Sys2Proof.MaskEnrolment : Prop :=
  ∀ f : FK,
    let k := f.mask.val
    let word (c : Ctx) (x : Group) : Nat := if f.a = .none then f.imm.toNat else x.rd32 f.a c.low
    let other (x : Group) : Nat := (x.mask f.mask2.val).enrol
    let sets (i : Instr) (masks : List (Fin 16)) (v : Ctx → Group → Nat) : Prop :=
      CompletesWaiting i masks [src32 f.a] (fun _ c => c.act = []) (fun s c => s.advance c) ∧
      ∀ s c, CanIssue s c masks [src32 f.a] → c.act ≠ [] →
        ∀ s', (((s.begun c [src32 f.a]).advance c).onGrp c fun x => x.mset k (v c x)).submitAll c.core c.gid = some s' →
          exec i s = .next (s'.finish c)
    Completes (.join f) [f.mask] [] (fun _ _ => True) (fun s c => (s.advance c).onGrp c fun x =>
      let m := x.mask k
      x.setMask k { m with enrol := m.enrol ||| maskOf c.act, arr := c.act.foldl clearBit m.arr }) ∧
    (∀ s c, CanIssue s c [f.mask] [] →
      ∀ s', (((s.begun c []).advance c).onGrp c fun x => c.act.foldl (fun x l => x.leaveMask k l) x).submitAll c.core c.gid = some s' →
        exec (.leave f) s = .next (s'.finish c)) ∧
    sets (.voteMask f) [f.mask] (fun c x => x.ballot c f.a) ∧
    sets (.msetMov f) [f.mask] word ∧
    sets (.msetOr f) [f.mask, f.mask2] (fun c x => other x ||| word c x) ∧
    sets (.msetAnd f) [f.mask, f.mask2] (fun c x => other x &&& word c x) ∧
    sets (.msetAndn f) [f.mask, f.mask2] (fun c x => other x &&& ((2 ^ 32 - 1) ^^^ word c x))

/-- WAITM (R87, R88, R95): enrolled active lanes arrive and wait at the instruction, the others go on, and the mask is released when
all that are enrolled have arrived; it waits while an earlier access of an arriving lane has still to be performed (R298). -/
def Sys2Proof.WaitmArrives : Prop :=
  ∀ f : FK,
    let k := f.mask.val
    let mine (s : State) (c : Ctx) : List Nat := c.act.filter fun l => ((s.grp c).mask k).enrol.testBit l
    CompletesWaiting (.waitm f) [f.mask] []
      (fun s c => (c.mode = .u ∨ 10 ≤ k) ∧ s.mayRelease c.core c.gid 0 (mine s c) = true)
      fun s c => ((s.advance c).retry c (mine s c)).onGrp c fun x =>
        let m := x.mask k
        ((x.setMask k { m with arr := m.arr ||| maskOf (mine s c),
                               stamps := (mine s c).foldl (fun t l => t.put l (x.lane l).c) m.stamps }).onLanes (mine s c) fun _ l =>
          { l with wait := .waitm k }).releaseMask k

/-- A full mask is released (R87): where all that are enrolled have arrived, every waiter acquires the arrivals, waits for nothing and
stands after its WAITM; the arrival set is empty. -/
def Sys2Proof.FullMaskReleasesItsWaiters : Prop :=
  ∀ (x : Group) (k l : Nat), (x.mask k).enrol ≠ 0 → (x.mask k).arr = (x.mask k).enrol → k < x.masks.length →
    ((x.releaseMask k).mask k).arr = 0 ∧ ((x.releaseMask k).mask k).enrol = (x.mask k).enrol ∧
    (l ∈ x.live → (x.lane l).wait = .waitm k →
      ((x.releaseMask k).lane l).wait = .none ∧ ((x.releaseMask k).lane l).pc = nextPc (x.lane l).pc) ∧
    ((x.lane l).wait ≠ .waitm k → (x.releaseMask k).lane l = x.lane l)

/-- SPAWN (R75, R76, R80, R100, R294, R424): a group of the active lanes at their targets is created where the core may hold one more, and D
receives its GROUPID; where it may not, D receives 0xFFFF_FFFF and nothing is created. The child's live lanes are those that were active,
each at its own target in the mode of the parent, with predicates clear; V0 holds the parent's GROUPID in every lane; no lane is
enrolled in a mask; it has the parent's operator, tenant, FPCTL and idempotent flag and a window of as many granules, none of them another group's,
in the parent's slot. Its clocks, from the highest C of the spawning lanes, are the model's choice (log entry 41). -/
def Obligations.SpawnCreatesAGroup : Prop :=
  ∀ f : FB,
    let uses := dst32 f.lnk :: transferUses f
    let may (s : State) (c : Ctx) : Prop := c.act ≠ [] ∧ s.mayRelease c.core c.gid 0 c.act = true
    (∀ s c, CanIssue s c [] uses → c.act = [] → ∃ t, exec (.spawn f) s = .next t ∧ Follows ((s.begun c uses).advance c) t c) ∧
    (∀ s c, CanIssue s c [] uses →
      let b := s.begun c uses
      may b c → (b.core c.core).admits c.slot (b.grp c).window.length = false →
      ∃ t, exec (.spawn f) s = .next t ∧
        Follows ((b.advance c).onGrp c fun x => x.wr c f.lnk false fun _ => 0xFFFFFFFF) t c) ∧
    (∀ s c, CanIssue s c [] uses →
      let b := s.begun c uses
      may b c → (b.core c.core).admits c.slot (b.grp c).window.length = true →
      ∀ k gid, (b.core c.core).create b.nextId c.slot (b.grp c).window.length
          (fun _ => spawnedGroup c (b.grp c) (transferTarget f b c)) = (k, gid) →
        exec (.spawn f) s = .next
          (((({ b.setCore c.core k with nextId := b.nextId + 1 }).advance c).onGrp c fun x =>
            x.wr c f.lnk false fun _ => gid).finish c) ∧
        ∃ t y, exec (.spawn f) s = .next t ∧ t.group? c.core gid = some y ∧ y.slot = c.slot ∧ y.live = c.act ∧
          (∀ l ∈ c.act, (y.lane l).pc = transferTarget f b c l ∧ (y.lane l).mode = c.mode ∧ (y.lane l).pred = 0x8000#16 ∧
            (y.lane l).c = (b.grp c).maxC c.act ∧ (y.lane l).h = (b.grp c).maxC c.act ∧ (y.lane l).wait = .none ∧
            (y.lane l).traps = []) ∧
          (∀ l, l < 32 → sget y.v l = BitVec.ofNat 32 (b.grp c).gid) ∧ (∀ k, 32 ≤ k → sget y.v k = 0#32) ∧ y.s = [] ∧
          (∀ k, k < 12 → (y.mask k).enrol = 0 ∧ (y.mask k).arr = 0 ∧ (y.mask k).sig = 0 ∧ (y.mask k).pending = none) ∧
          y.opid = (b.grp c).opid ∧ y.tenant = (b.grp c).tenant ∧ y.fpctl = (b.grp c).fpctl ∧ y.fpstat = 0 ∧
          y.idem = (b.grp c).idem ∧ y.window.length = (b.grp c).window.length ∧
          ∀ g ∈ y.window, g ∈ (b.core c.core).freeGranules)

/-- EXIT (R101, R309, R341, R422): a lane that runs the handler of an access of its own first gives up what it has parked and held. Then, with
no parked access and no unperformed store of an active lane and the accesses of its irrevocable runs performed, the fibres of the active
lanes end, their masks are left and what is still to come for them goes nowhere; the inactive lanes go on. That the end of an irrevocable
run by EXIT waits as TEND's does is the model's choice (log entry 14). -/
def Sys2Proof.ExitEndsFibres : Prop :=
  ∀ s c, CanIssue s c [] [] →
    let b := (s.begun c []).leaveHandler c
    c.act.all (fun l => !b.hasUnfinished c.core c.gid l) = true → b.mayRelease c.core c.gid 3 ((b.grp c).runs c.act) = true →
    ∀ s', ((b.advance c).endLanes c.core c.gid c.act).submitAll c.core c.gid = some s' → exec .exit s = .next (s'.finish c)

/-- NAP (R103): an active lane whose time is not 0 waits at the instruction until d clk and at most 64 more have passed; where a
time is 0 the turn ends as by YIELD. The extra clk is a free value (log 2). -/
def Sys2Proof.NapWaits : Prop :=
  ∀ f : FI,
    CompletesWaiting (.nap f) [] [src32 f.a] (fun _ _ => True) fun s c =>
      let time (l : Nat) : Nat := min ((s.grp c).rd32 f.a l + f.imm.toNat) (2 ^ 32 - 1)
      let naps := c.act.filter fun l => time l != 0
      ((s.draw.advance c).retry c naps).onGrp c fun x =>
        let x := x.onLanes naps fun l k => { k with wait := .nap (s.clk + Config.napExtra s.free % 65 + time l) }
        if naps.length < c.act.length then x.yieldTurn else x

/-- Arrival barriers (R90, R91, R104) on a legal word address, with the releasing lanes' earlier accesses performed: BARI sets the
word and frees every waiter, ARRIVE arrives lane by lane in ascending order, ARRIVE.ONE once for the set, AWAIT lets lanes pass whose
phase is over and the others wait, AWAIT.TEST says which. An S register D of AWAIT is written by the lowest active lane alone (R62). The
two hidden stamps of the word, one for each phase, are the model's choice (log entry 11). -/
def Sys2Proof.ArrivalBarriers : Prop :=
  ∀ f : FI,
    let a := f.imm.toNat
    let at_ (s : State) (c : Ctx) : Nat := (s.core c.core).partBase c.slot + a
    let ok (rel : Ctx → List Nat) (s : State) (c : Ctx) : Prop :=
      c.act ≠ [] ∧ a % 8 = 0 ∧ (s.core c.core).spadFail c.slot a 8 = none ∧ s.mayRelease c.core c.gid 0 (rel c) = true
    let n (s : State) (c : Ctx) (l : Nat) : Nat := (s.grp c).rd32 f.a l % 2 ^ 16
    CompletesWaiting (.bari f) [] [src32 f.a] (ok fun c => [c.low]) (fun s c =>
      let v := ((s.grp c).lane c.low).c
      (s.advance c).onCore c.core fun k => ((k.spadWrite (at_ s c) 8 (n s c c.low * 2 ^ 32 + n s c c.low * 2 ^ 16)).setHidden
        (at_ s c) (some v) (some v)).mapGroups fun g => g.releaseAwait (at_ s c) none 0 (some v)) ∧
    CompletesWaiting (.arrive f) [] [dst32 f.d, src32 f.a] (ok fun c => c.act) (fun s c =>
      let r := (s.advance c).arrivals c (at_ s c) (n s c) c.act
      r.1.onGrp c fun x => x.wr c f.d false fun l => valueFor r.2 l) ∧
    CompletesWaiting (.arriveOne f) [] [dst32 f.d, src32 f.a] (ok fun c => [c.low]) (fun s c =>
      let r := (s.advance c).arrivals c (at_ s c) (n s c) [c.low]
      r.1.onGrp c fun x => x.wr c f.d false fun _ => valueFor r.2 c.low) ∧
    CompletesWaiting (.await f) [] [dst32 f.d, src32 f.a] (ok fun _ => []) (fun s c =>
      let w := (s.core c.core).arrWord (at_ s c)
      let waits := c.act.filter fun l => n s c l == w.phase
      let passes := c.act.filter fun l => n s c l != w.phase
      ((s.advance c).retry c waits).onGrp c fun x =>
        let x := x.onLanes waits fun l k => { k with wait := .await (at_ s c) w.phase (c.destOf f.d l) }
        (passes.foldl (fun y l => y.put32 (c.destOf f.d l) l w.phase) x).onLanes passes fun _ k =>
          k.acquire? ((s.core c.core).hiddenStamps (at_ s c)).2) ∧
    CompletesWaiting (.awaitTest f) [] [src32 f.a] (ok fun _ => []) (fun s c =>
      let past (l : Nat) : Bool := n s c l != ((s.core c.core).arrWord (at_ s c)).phase
      (s.advance c).onGrp c fun x => (x.wrPred c f.pd past).onLanes (c.act.filter past) fun _ k =>
        k.acquire? ((s.core c.core).hiddenStamps (at_ s c)).2)

/-- One arrival at an arrival barrier (R90, R104): the last arrival of a phase sets PEND back to EXPECT and moves the phase on; another
one lowers PEND; a word with EXPECT 0 is left alone; arrivals beyond PEND are discarded and told in D. -/
def Sys2Proof.ArrivalWordAfterOneArrival : Prop :=
  ∀ (k : Core) (p n clock : Nat), p % 8 = 0 →
    let w := k.arrWord p
    let r := k.arriveAt p n clock
    (w.expect = 0 → r = (k, w.phase + 0x40000000)) ∧
    let m := min n w.pend
    (w.expect ≠ 0 → r.2 = w.phase + if w.pend < n then 0x80000000 else 0) ∧
    (w.expect ≠ 0 → 0 < m → m = w.pend → r.1.arrWord p = { w with pend := w.expect, phase := (w.phase + 1) % 2 ^ 16 }) ∧
    (w.expect ≠ 0 → m = 0 ∨ m < w.pend → r.1.arrWord p = { w with pend := w.pend - m })

/-- CBAR and KBAR (R92, R105), with the lanes' earlier accesses performed: active lanes wait at the instruction in the barrier's phase;
the end of the issue counts the group's arrival when all of its live lanes wait there. A KBAR id that is not allotted traps, even
with no active lane, which is the model's choice (log entry 11), as is that a core of no cluster waits in phase 0 (log entry 69). -/
def Sys2Proof.BarrierWaits : Prop :=
  ∀ f : FI,
    let waits (s : State) (c : Ctx) (w : Wait) : State :=
      ((s.advance c).retry c c.act).onGrp c fun x => x.onLanes c.act fun _ k => { k with wait := w }
    let id := bits f.imm.toNat 5 0
    CompletesWaiting (.cbar f) [] [] (fun s c => s.mayRelease c.core c.gid 0 c.act = true) (fun s c =>
      let i := bits f.imm.toNat 3 0
      waits s c (.cbar i (bits f.imm.toNat 12 8) (((s.core c.core).cbar.find? (16 * c.slot + i)).getD Barrier.reset).phase)) ∧
    CompletesWaiting (.kbar f) [] []
      (fun s c => id < s.kbarn c.core (s.grp c) ∧ s.mayRelease c.core c.gid 1 c.act = true) (fun s c =>
      let key := kbarKey (s.grp c).opid id
      let phase := match clusterOf c.core with
        | some cl => (((s.cluster cl).kbar.find? key).getD Barrier.reset).phase
        | none => 0
      waits s c (.kbar key (bits f.imm.toNat 24 16) phase)) ∧
    CompletesWaiting (.kbar f) [] [] (fun s c => s.kbarn c.core (s.grp c) ≤ id) (fun s c => s.trapSet c 6)

/-- The last group to arrive completes a core or cluster barrier's phase (R92), and an earlier one is counted. -/
def Sys2Proof.LastArrivalCompletesThePhase : Prop :=
  ∀ (b : Barrier) (uid count clock : Nat),
    let expected := if b.arrived = [] then count else b.expected
    (b.arrived.length + 1 = expected → (b.arrive uid count clock).phase = b.phase + 1 ∧ (b.arrive uid count clock).arrived = []) ∧
    (b.arrived.length + 1 ≠ expected → (b.arrive uid count clock).phase = b.phase ∧
      (b.arrive uid count clock).arrived = b.arrived ++ [uid] ∧ (b.arrive uid count clock).expected = expected)

/-- RDSR and WRSR (R112, R128, R129): the register read for each lane; WRSR writes FPCTL or FPSTAT from the lowest active lane, in the
bits that they have. Both wait while an earlier instruction of the group has still to merge its flags. -/
def Sys2Proof.SpecialRegisterAccess : Prop :=
  ∀ f : FI,
    let n := f.imm.toNat
    let wide := n == 10 || n == 11 || n == 12
    Completes (.rdsr f) [] [dstW wide f.d] (fun s c => n ≠ 19 ∨ s.flagsOwed c = false) (fun s c =>
      (s.advance c).onGrp c fun x => x.wr c f.d wide fun l => s.special c n l) ∧
    Completes (.wrsr f) [] [src32 f.a] (fun s c => c.act ≠ [] ∧ s.flagsOwed c = false) (fun s c =>
      (s.advance c).onGrp c fun x =>
        if f.imm = 18 then { x with fpctl := (s.grp c).rd32 f.a c.low % 8 } else { x with fpstat := (s.grp c).rd32 f.a c.low % 32 }) ∧
    Completes (.wrsr f) [] [src32 f.a] (fun _ c => c.act = []) fun s c => s.advance c

/-- WGROW and WSHRINK (R106, R107, R130) with an active lane: granules join at the end of the window if it stays within 640 registers and
the core has them; they leave from its end if one stays and nothing outstanding names their registers; PD says whether. -/
def Sys2Proof.WindowGrowsAndShrinks : Prop :=
  ∀ f : FI,
    let n := f.imm.toNat
    Completes (.wgrow f) [] [] (fun _ c => c.act ≠ []) (fun s c =>
      let free := ((s.advance c).core c.core).freeGranules
      (s.advance c).onGrp c fun x =>
        let ok := decide (x.winsize + n ≤ 640) && decide (n / 32 ≤ free.length)
        ({ x with window := if ok then x.window ++ free.take (n / 32) else x.window }).wrPred c f.pd fun _ => ok) ∧
    Completes (.wgrow f) [] [] (fun _ c => c.act = []) (fun s c => s.advance c) ∧
    Completes (.wshrink f) [] [] (fun s c => c.act ≠ [] ∧ ((s.advance c).grp c).winsize < n + 32) (fun s c =>
      (s.advance c).onGrp c fun x => x.wrPred c f.pd fun _ => false) ∧
    Completes (.wshrink f) [] []
      (fun s c => let b := s.advance c
        c.act ≠ [] ∧ n + 32 ≤ (b.grp c).winsize ∧ b.busyAbove c ((b.grp c).winsize - n) = false) (fun s c =>
      (s.advance c).onGrp c fun x => (x.shrinkTo (((s.advance c).grp c).winsize - n)).wrPred c f.pd fun _ => true) ∧
    Completes (.wshrink f) [] [] (fun _ c => c.act = []) fun s c => s.advance c

/-- The trap that a lane's scratchpad access would take at what the instruction finds. -/
def Sys2Proof.noLaneFails (fail : State → Ctx → Nat → Option (Nat × Nat)) (s : State) (c : Ctx) : Prop :=
  ∀ l ∈ c.act, fail s c l = none

/-- Scratchpad loads and stores by address and by descriptor, and scratchpad atomics (R157 to R163, R171, R172), where no lane's
address fails: loads write D, stores write the addressed bytes in ascending lane order, atomics do both. -/
def Sys2Proof.ScratchpadLoadsAndStores : Prop :=
  ∀ f : FM,
    let n := Machine.sizeOf f.sz
    let plain := [src64 f.a, src32 f.b]
    let desc := [descUse f.a, src32 f.b]
    Completes (.lds f) [] (dstData f.d n :: plain) (noLaneFails fun s c l => s.ldsFail f c l) (fun s c =>
      (s.advance c).onGrp c fun x => x.wrData c f.d n fun l =>
        match (s.advance c).ldsTarget f c l with
        | .ok (k, p) => extend (f.fn == 1) n (((s.advance c).core k).spadRead p n)
        | .error _ => 0) ∧
    Completes (.sts f) [] (srcData f.d n :: plain) (noLaneFails fun s c l => s.ldsFail f c l) (fun s c =>
      c.act.foldl (fun t l =>
        match (s.advance c).ldsTarget f c l with
        | .ok (k, p) => t.onCore k fun q => q.spadWrite p n (((s.advance c).grp c).rdData f.d l n)
        | .error _ => t) (s.advance c)) ∧
    (∀ s c, noLaneFails (fun s c l => s.ldsrFail f c l) s c → c.act ≠ [] →
      descOf ((s.grp c).descWords f.a).1 ((s.grp c).descWords f.a).2 ≠ none) ∧
    (∀ d, Completes (.ldsr f) [] (dstData f.d n :: desc)
        (fun s c => noLaneFails (fun s c l => s.ldsrFail f c l) s c ∧
          descOf (((s.advance c).grp c).descWords f.a).1 (((s.advance c).grp c).descWords f.a).2 = some d) (fun s c =>
        (s.advance c).onGrp c fun x => x.wrData c f.d n fun l =>
          let (t, i, col) := rowOf f ((s.advance c).grp c) l
          extend (f.fn == 1) n (((s.advance c).core c.core).descRead c.slot d t i col n)) ∧
      Completes (.stsr f) [] (srcData f.d n :: desc)
        (fun s c => noLaneFails (fun s c l => s.ldsrFail f c l) s c ∧
          descOf (((s.advance c).grp c).descWords f.a).1 (((s.advance c).grp c).descWords f.a).2 = some d) (fun s c =>
        (s.advance c).onCore c.core fun k => c.act.foldl (fun k l =>
          let (t, i, col) := rowOf f ((s.advance c).grp c) l
          k.descWrite c.slot d t i col (((s.advance c).grp c).rdData f.d l n) n) k)) ∧
    Completes (.atoms f) [] (dstData f.d n :: plain ++ [srcData f.c n]) (noLaneFails fun s c l => s.atomsFail f c l) (fun s c =>
      let r := ((s.advance c).core c.core).atoms f ((s.advance c).grp c) c.slot c.act
      ((s.advance c).setCore c.core r.1).onGrp c fun x => (x.wrData c f.d n fun l => valueFor r.2.1 l).mergeFlags r.2.2)

/-- Where a lane's address fails (R159, R163, R171, R172), exactly the failing lanes take the scratchpad trap, each with its own cause and
address, at the instruction; no lane's access is performed and every other lane of the set stays. Each lane's own cause and address is
the model's choice (log entry 9). -/
def Sys2Proof.ScratchpadTraps : Prop :=
  ∀ f : FM,
    let n := Machine.sizeOf f.sz
    let trapped (i : Instr) (uses : List Use) (fail : State → Ctx → Nat → Option (Nat × Nat)) : Prop :=
      ∀ s c, CanIssue s c [] uses →
        let b := s.begun c uses
        let fails := c.act.filterMap fun l => (fail b c l).map fun e => (l, e.1, e.2)
        fails ≠ [] → exec i s = .next ((b.spadTraps c fails).finish c)
    trapped (.lds f) [dstData f.d n, src64 f.a, src32 f.b] (fun s c l => s.ldsFail f c l) ∧
    trapped (.sts f) [srcData f.d n, src64 f.a, src32 f.b] (fun s c l => s.ldsFail f c l) ∧
    trapped (.ldsr f) [dstData f.d n, descUse f.a, src32 f.b] (fun s c l => s.ldsrFail f c l) ∧
    trapped (.stsr f) [srcData f.d n, descUse f.a, src32 f.b] (fun s c l => s.ldsrFail f c l) ∧
    trapped (.atoms f) [dstData f.d n, src64 f.a, src32 f.b, srcData f.c n] (fun s c l => s.atomsFail f c l)

/-- What STS leaves unchanged (R171): no byte of a scratchpad outside the bytes that the active lanes' addresses name, in any core; no
register; nothing of main memory. -/
def Sys2Proof.StoreToScratchpadFrame : Prop :=
  ∀ (f : FM) (s : State) (c : Ctx),
    let n := Machine.sizeOf f.sz
    let uses := [srcData f.d n, src64 f.a, src32 f.b]
    CanIssue s c [] uses → noLaneFails (fun s c l => s.ldsFail f c l) (s.begun c uses) c →
    ∃ t, exec (.sts f) s = .next t ∧ t.mem = s.mem ∧ t.accesses = s.accesses ∧
      (t.grp c).v = (s.grp c).v ∧ (t.grp c).s = (s.grp c).s ∧
      ∀ core a, (∀ l ∈ c.act, ∀ p, s.ldsTarget f c l = .ok (core, p) → a < p ∨ p + n ≤ a) →
        sget (t.core core).spad a = sget (s.core core).spad a

/-- LDA, STA, ZACC and ZACC.ROWS (R164, R165, R173, R174) with legal elements of a tile that the slot owns and that no operation uses. -/
def Sys2Proof.AccumulatorAccesses : Prop :=
  ∀ f : F3,
    let t := f.fn.toNat
    let w := accWidth f
    let ok (s : State) (c : Ctx) : Prop :=
      noLaneFails (fun s c l => s.accFail f c l) s c ∧ (c.act = [] ∨ (s.core c.core).accBusy t = false)
    Completes (.lda f) [] [dstRun f.d w false, src32 f.a, src32 f.b] ok (fun s c =>
      (s.advance c).onGrp c fun x => c.act.foldl (fun y l =>
        (List.range w).foldl (fun y e =>
          match f.d with
          | .v r => if r.val + e < y.winsize then
              y.setV (r.val + e) l (((s.advance c).core c.core).accGet t (x.rd32 f.a l) (x.rd32 f.b l + e)) else y
          | _ => y) y) x) ∧
    Completes (.sta f) [] [src32 f.a, src32 f.b, srcRun f.c w false] ok (fun s c =>
      (s.advance c).onCore c.core fun k => c.act.foldl (fun k l =>
        let x := (s.advance c).grp c
        (List.range w).foldl (fun k e =>
          k.accPut t (x.rd32 f.a l) (x.rd32 f.b l + e) (x.rdRegs f.c l (e + 1) / 2 ^ (32 * e))) k) k) ∧
    (let mine (s : State) (c : Ctx) : Prop :=
      c.act ≠ [] ∧ (s.core c.core).ownsAcc c.slot t = true ∧ (s.core c.core).accBusy t = false
     Completes (.zacc f) [] [] mine (fun s c => (s.advance c).onCore c.core fun k => k.accZeroRows t 0 64) ∧
     Completes (.zaccRows f) [] [src32 f.a, src32 f.b]
      (fun s c => mine s c ∧ (s.grp c).rd32 f.a c.low + (s.grp c).rd32 f.b c.low ≤ 64) fun s c =>
        (s.advance c).onCore c.core fun k => k.accZeroRows t ((s.grp c).rd32 f.a c.low) ((s.grp c).rd32 f.b c.low))

/-- SFILL (R175) with a legal range and a place free: the fill is begun; with a tag the set goes on and the tag's count rises by one, without
one the lanes wait. A length of 0 and no active lane do nothing. SFILL_COMPLETE writes the pattern over the range, and the tag drops
or the lanes go on. -/
def Sys2Proof.ScratchpadFill : Prop :=
  ∀ f : FM,
    let n := Machine.sizeOf f.sz
    let uses := [srcData f.d n, src64 f.a, src32 f.b, tagUse f.c]
    let a (s : State) (c : Ctx) : Nat := wrap 53 (((s.grp c).rd64 f.a c.low : Int) + f.ofs.toInt)
    let m (s : State) (c : Ctx) : Nat := (s.grp c).rd32 f.b c.low
    let begins (s : State) (c : Ctx) : Prop :=
      c.act ≠ [] ∧ m s c ≠ 0 ∧ a s c % n = 0 ∧ m s c % n = 0 ∧ spadAligned (a s c) (m s c) = true ∧ a s c + m s c ≤ (s.core c.core).partSize c.slot ∧
      ((s.core c.core).fills.filter fun q => q.slot == c.slot).length < 16
    let begun (s : State) (c : Ctx) : State :=
      { s with nextId := s.nextId + 1 }.onCore c.core fun k => { k with fills := k.fills ++ [(⟨s.nextId, c.gid, c.slot,
        (s.core c.core).partBase c.slot + a s c, m s c, (s.grp c).rdData f.d c.low n, n, tagOf f.c⟩ : Fill)] }
    Completes (.sfill f) [] uses (fun s c => c.act = [] ∨ m s c = 0) (fun s c => s.advance c) ∧
    (∀ t, tagOf f.c = some t → Completes (.sfill f) [] uses begins fun s c =>
      ((begun s c).advance c).onGrp c fun x => x.onTag t fun g => g.add) ∧
    (tagOf f.c = none → CompletesWaiting (.sfill f) [] uses begins fun s c =>
      (begun s c).onGrp c fun x => x.onLanes c.set fun _ k => { k with wait := .reply s.nextId })

/-- WLOAD and WLOAD.REL (R178, R179, R199): the group's block is read from the scratchpad into a free bank, which is FILLING until
BANK_READY; the group's earlier block is given up. With no active lane neither does anything. That the bank holds the bytes as they
stand at the issue, one of the orders that R169 allows, is the model's choice (log entry 42). -/
def Sys2Proof.WeightLoads : Prop :=
  (∀ (f : F3) (s : State) (c : Ctx),
    let uses := [descUse f.a, src32 f.b, tagUse f.c]
    CanIssue s c [] uses →
    let b := s.begun c uses
    let x := b.grp c
    let fmt := f.md.toNat
    let t := x.rd32 f.b c.low
    (c.act = [] → ∃ r, exec (.wload f) s = .next r ∧ Follows (b.advance c) r c) ∧
    ∀ d bank, c.act ≠ [] → x.boarded = false → descOf (x.descWords f.a).1 (x.descWords f.a).2 = some d →
      (b.core c.core).rowsFail c.slot d t 128 (rowBytes fmt) = none →
      let k := (b.core c.core).giveUpBank x.uid
      k.banks.length = 2 → ([0, 1].any fun i => (k.bank i).owner == some x.uid) = false → k.bankToTake = some bank →
      ∃ r, exec (.wload f) s = .next r ∧
        ((r.core c.core).bank bank).st = 1 ∧ ((r.core c.core).bank bank).fmt = fmt ∧
        ((r.core c.core).bank bank).owner = some x.uid ∧ ((r.core c.core).bank bank).bytes = k.blockBytes c.slot d t fmt ∧
        ((r.core c.core).bank (1 - bank)) = k.bank (1 - bank) ∧ r.mem = s.mem) ∧
  Completes .wloadRel [] [] (fun _ c => c.act ≠ []) (fun s c =>
    (s.advance c).onCore c.core fun k => k.giveUpBank ((s.advance c).grp c).uid) ∧
  Completes .wloadRel [] [] (fun _ c => c.act = []) fun s c => s.advance c

/-- TMMA, ADPT and MSIGN (R182 to R189, R198, R200, R201), where nothing that R200 checks fails and the enrolled active lanes' earlier
accesses are performed: the operation is pending on its mask, its tag's count rises, the enrolled active lanes sign, and what is
then complete is submitted to the array. -/
def Sys2Proof.MatrixOperationsIssue : Prop :=
  (∀ f : FT,
    let holds (i : Instr) (adpt : Option (Nat × Nat)) : Prop :=
      ∀ s c, CanIssue s c [f.cv] (daUse f (s.grp c) :: (if f.db = .none then [] else [descUse f.db]) ++ [tagUse f.c]) →
        let b := s.begun c (daUse f (s.grp c) :: (if f.db = .none then [] else [descUse f.db]) ++ [tagUse f.c])
        let chain := b.chainOf c f.epi.toNat
        let ls := c.act.filter fun l => ((b.grp c).mask f.cv.val).enrol.testBit l
        (c.act = [] → ∃ t, exec i s = .next t ∧ Follows (b.advance c) t c) ∧
        (c.act ≠ [] → b.opFail f c adpt chain = none → b.mayRelease c.core c.gid 0 ls = true →
          ∀ s', ({ (b.advance c).onGrp c (fun x => x.issueOp (b.matOp f c adpt chain) ls) with
              nextId := b.nextId + 1 } : State).submitAll c.core c.gid = some s' →
            exec i s = .next (s'.finish c))
    holds (.tmma f) none ∧ holds (.adpt f) (some (8 * (f.fn.toNat / 16 + 1), 8 * (f.fn.toNat % 16 + 1)))) ∧
  (∀ f : FK, ∀ s c, CanIssue s c [f.mask] [] →
    let b := s.begun c []
    let ls := c.act.filter fun l => ((b.grp c).mask f.mask.val).enrol.testBit l
    (ls = [] → ∃ t, exec (.msign f) s = .next t ∧ Follows (b.advance c) t c) ∧
    (ls ≠ [] → b.mayRelease c.core c.gid 0 ls = true →
      ∀ s', ((b.advance c).onGrp c fun x => x.sign f.mask.val ls).submitAll c.core c.gid = some s' →
        exec (.msign f) s = .next (s'.finish c)))

/-- A matrix operation that R200 refuses (R187, R194, R200, R204): every active lane takes the trap of the first check that fails, the
others stay, and nothing is issued. -/
def Sys2Proof.RefusedMatrixOperationsTrap : Prop :=
  ∀ f : FT,
    let trapped (i : Instr) (adpt : Option (Nat × Nat)) : Prop :=
      ∀ s c, CanIssue s c [f.cv] (daUse f (s.grp c) :: (if f.db = .none then [] else [descUse f.db]) ++ [tagUse f.c]) →
        let b := s.begun c (daUse f (s.grp c) :: (if f.db = .none then [] else [descUse f.db]) ++ [tagUse f.c])
        c.act ≠ [] → ∀ kind cause addr, b.opFail f c adpt (b.chainOf c f.epi.toNat) = some (kind, cause, addr) →
          exec i s = .next ((b.enterTraps c.core c.gid (fun _ => ⟨kind, cause, c.pc, addr, 0, none⟩) c.act).finish c)
    trapped (.tmma f) none ∧ trapped (.adpt f) (some (8 * (f.fn.toNat / 16 + 1), 8 * (f.fn.toNat % 16 + 1)))

/-- What a lane finds that may issue an access at once: it runs no transaction, the address is aligned, no earlier access of it stands in
the way, and the operand log does not keep it back (R276, R286, R300). An access to host memory is no release (R263). -/
def Sys2Proof.accessMayIssue (f : FM) (size : Nat) (release : Bool) (need : Need) (s : State) (c : Ctx) (l : Nat) (a : Access) : Prop :=
  ((s.grp c).lane l).tx.active = false ∧ fmAddr f (s.grp c) l % size = 0 ∧
  s.laneMayIssue c (release && !s.toHost c need (fmAddr f (s.grp c) l)) f.scope.toNat l = true ∧ s.logBlocks a = false

/-- Global loads and stores issue (R286, R287, R291, R424): the set goes on at once, with one access for each active lane in ascending order
(STGM: for each whose mask is not zero); memory and registers stay; after a store by an active lane the group is no longer
idempotent. -/
def Sys2Proof.GlobalAccessesIssue : Prop :=
  ∀ f : FM,
    let n := Machine.sizeOf f.sz
    let addr (s : State) (c : Ctx) (l : Nat) : Nat := fmAddr f (s.grp c) l
    let one (mk : State → Ctx → State → Nat → Access) (s : State) (c : Ctx) : State :=
      c.act.foldl (fun t l => t.addAccess (mk s c t l)) (s.advance c)
    let may (size : Nat) (w : Bool) (mk : State → Ctx → State → Nat → Access) (s : State) (c : Ctx) : Prop :=
      ∀ l ∈ c.act, accessMayIssue f size (releases f.sem w) (if w then .store else .load) s c l (mk s c s l)
    let stored (c : Ctx) (t : State) : State := if c.act.isEmpty then t else t.notIdem c
    let load (s : State) (c : Ctx) (t : State) (l : Nat) : Access :=
      t.newAccess c l f (.load (f.fn == 1)) (addr s c l) n f.d (max 1 (n / 4))
    let store (s : State) (c : Ctx) (t : State) (l : Nat) : Access :=
      { t.newAccess c l f .store (addr s c l) n .none 0 with data := (s.grp c).rdData f.d l n }
    let zero (s : State) (c : Ctx) (t : State) (l : Nat) : Access := t.newAccess c l f .store (addr s c l) 128 .none 0
    let mask (s : State) (c : Ctx) (l : Nat) : Nat := (s.grp c).rd32 f.c l % 2 ^ n
    let masked (s : State) (c : Ctx) (t : State) (l : Nat) : Access := { store s c t l with mask := mask s c l }
    Completes (.ldg f) [] [dstData f.d n, src64 f.a, src32 f.b] (may n false load) (one load) ∧
    Completes (.stg f) [] [srcData f.d n, src64 f.a, src32 f.b] (may n true store) (fun s c => stored c (one store s c)) ∧
    Completes (.stgm f) [] [srcData f.d n, src64 f.a, src32 f.b, src32 f.c]
      (fun s c => ∀ l ∈ c.act, ((s.grp c).lane l).tx.active = false ∧ addr s c l % n = 0 ∧
        (mask s c l = 0 ∨ accessMayIssue f n (releases f.sem true) .store s c l (masked s c s l)))
      (fun s c => stored c (c.act.foldl (fun t l => if mask s c l = 0 then t else t.addAccess (masked s c t l)) (s.advance c))) ∧
    Completes (.cctlZero f) [] [src64 f.a, src32 f.b] (may 128 true zero) (fun s c => stored c (one zero s c))

/-- A misaligned address of an active lane (R286, R293): all active lanes take the memory trap with cause ALIGN at the instruction, each with
its own address; no access is issued and memory stays. -/
def Sys2Proof.MisalignedAccessesTrap : Prop :=
  ∀ f : FM,
    let n := Machine.sizeOf f.sz
    let trapped (i : Instr) (uses : List Use) (size : Nat) : Prop :=
      ∀ s c, CanIssue s c [] uses →
        let b := s.begun c uses
        (∃ l ∈ c.act, fmAddr f (b.grp c) l % size ≠ 0) →
          exec i s = .next ((b.enterTraps c.core c.gid
            (fun l => ⟨13, 1, c.pc, fmAddr f (b.grp c) l, 0, none⟩) c.act).finish c)
    trapped (.ldg f) [dstData f.d n, src64 f.a, src32 f.b] n ∧
    trapped (.stg f) [srcData f.d n, src64 f.a, src32 f.b] n ∧
    trapped (.stgm f) [srcData f.d n, src64 f.a, src32 f.b, src32 f.c] n ∧
    trapped (.cctlZero f) [src64 f.a, src32 f.b] 128 ∧
    trapped (.waitv f) [dstData f.d n, srcData f.d n, src64 f.a, src32 f.b, src32 f.c] n

/-- Hints, queries and page hints (R267, R273, R281, R288 to R291): each active lane's page is looked up as for a load, and a line of this
package's memory is moved, evicted or marked; a prefetch of a page that is being invalidated does nothing, and the others wait for the
invalidation. TLBQ writes what the walk finds; PGHINT posts a record or pins pages and writes D. PIN and UNPIN need S or H mode. That
they issue when no lane has to wait for a request slot is the model's choice (log entry 73). -/
def Sys2Proof.HintsAndQueries : Prop :=
  ∀ f : FM,
    let uses := [src64 f.a, src32 f.b]
    let lines (act : State → Nat → State) (s : State) (c : Ctx) : State :=
      c.act.foldl (fun t l => match t.hintAddr c (fmAddr f (s.grp c) l) with
        | (t, some pa) => if t.isHbm pa then act t pa else t
        | (t, none) => t) (s.advance c)
    let always (_ : State) (_ : Ctx) : Prop := True
    let free (prefetch : Bool) (s : State) (c : Ctx) : Prop :=
      ∀ l ∈ c.act, s.lineWaits c prefetch (fmAddr f (s.grp c) l) = false
    Completes (.prefSlice f) [] uses (free true) (lines fun s pa => s.prefSlice f.rd.toNat pa) ∧
    Completes (.prefMem f) [] uses (free true) (lines State.prefMem) ∧
    Completes (.cctlEvict f) [] uses (free false) (lines fun s pa => s.evictLine pa) ∧
    Completes (.cctlHint f) [] uses (free false) (lines fun s pa => s.onDie (dieOfPa pa) fun d =>
      { d with slices := d.slices.map fun l => if l.line = pa / 128 then { l with v := hintV f.rd.toNat } else l }) ∧
    (let query (s : State) (c : Ctx) : State :=
      let vs := c.act.map fun l => (l, s.tlbqWord c (fmAddr f (s.grp c) l))
      (s.advance c).onGrp c fun y => y.wr c f.d true fun l => valueFor vs l
     let fields := { dst64 f.d with noneOk := false } :: uses
     Completes (.tlbq f) [] fields always query ∧
     Completes (.tlbqFill f) [] fields always fun s c =>
      c.act.foldl (fun t l => t.fillTlbs c (fmAddr f (s.grp c) l)) (query s c)) ∧
    (let hint (act : State → Ctx → Nat → State × Nat) (s : State) (c : Ctx) : State :=
      let r := c.act.foldl (fun (r : State × List (Nat × Nat)) l =>
        ((act r.1 c l).1, r.2 ++ [(l, (act r.1 c l).2)])) (s.advance c, [])
      r.1.onGrp c fun y => y.wr c f.d false fun l => valueFor r.2 l
     let uses := dst32 f.d :: uses ++ [src32 f.c]
     let pins (i : Instr) (act : State → Ctx → Nat → Option (State × Nat)) : Prop :=
      ∀ s c, CanIssue s c [] uses → c.mode ≠ .u → ∀ t vs,
        ((s.begun c uses).advance c).laneValues (fun s l => act s c l) c.act = some (t, vs) →
        ∃ u, exec i s = .next u ∧ Follows (t.onGrp c fun y => y.wr c f.d false fun l => valueFor vs l) u c
     Completes (.pghintWill f) [] uses always (hint fun s c l => s.postHint c f l) ∧
     Completes (.pghintDont f) [] uses always (hint fun s c l => s.postHint c f l) ∧
     pins (.pghintPin f) (fun s c l => s.pinPages c l (fmAddr f (s.grp c) l) (hintPages f (s.grp c) l)) ∧
     pins (.pghintUnpin f) (fun s c l => s.unpinPages c l (fmAddr f (s.grp c) l) (hintPages f (s.grp c) l)))

/-- WAITV and FENCE (R292, R298 to R300, R316, R317), with no lane in a transaction: WAITV issues each lane's reading access and the lanes wait at the
instruction; a fence whose waits are over (where it releases, for the accesses that its scope names; where it acquires, for reads)
raises C by one where it releases, and takes the read horizon where it acquires. -/
def Sys2Proof.WaitvAndFences : Prop :=
  ∀ f : FM,
    (let n := Machine.sizeOf f.sz
     let read (s : State) (c : Ctx) (t : State) (l : Nat) : Access :=
      { t.newAccess c l f (.waitv f.fn.toNat) (fmAddr f (s.grp c) l) n f.d (n / 4) with
        data := (s.grp c).rdData f.d l n,
        timeout := if f.c = .none then none else some (t.clk + (s.grp c).rd32 f.c l) }
     CompletesWaiting (.waitv f) [] [dstData f.d n, srcData f.d n, src64 f.a, src32 f.b, src32 f.c]
      (fun s c => ∀ l ∈ c.act, accessMayIssue f n (f.sem == 3) .load s c l (read s c s l)) fun s c =>
      c.act.foldl (fun t l => (t.addAccess (read s c t l)).onLane c.core c.gid l fun k => { k with wait := .waitv t.nextId })
        ((s.advance c).retry c c.act)) ∧
    (let reads (a : Access) : Prop := a.kind ≠ .store ∧ a.kind ≠ .prel ∧ ∀ op, a.kind ≠ .atomicR op
     let holds (i : Instr) (rel acq : Bool) : Prop :=
      Completes i [] []
        (fun s c => (rel = true → s.mayRelease c.core c.gid f.scope.toNat c.act = true) ∧
          (acq = true → ∀ l ∈ c.act, ∀ a ∈ s.ofLane c l, ¬ reads a)) fun s c =>
        (s.advance c).onGrp c fun x => x.onLanes c.act fun _ k =>
          let k := if rel then { k with c := stampNext k.c } else k
          if acq then { k with h := stampMax k.h k.p, c := stampMax k.c (stampMax k.h k.p) } else k
     holds (.fenceAr f) true true ∧ holds (.fenceAcq f) false true ∧ holds (.fenceRel f) true false ∧
     holds (.fenceSc f) true true)

/-- What a plain access finds that performs in this package's own memory without a race, a lock or a checkpoint entry (R267, R295, R305, R431). -/
structure Sys2Proof.PerformsPlainly (s : State) (a : Access) : Prop where
  found : s.access? s.turn.unit = some a
  own : isHost a.pa = false ∧ s.isOnChip a.pa = false ∧ s.isMgmt a.pa = false
  ready : s.mayPerform a = true
  early : a.late = false
  whole : a.repl = false
  noRace : s.raceOf a = none
  unlogged : (s.core a.core).ckptMode ≠ 1 ∨ s.ckptLogged a = false

/-- MEM_ACCESS_PERFORM of a store (R3, R264, R287, R295): exactly the bytes of its range that its mask names take its data, the least significant
byte lowest; every other byte of memory and every other access (but for its notes of R286) stays, and its reply is on its way. -/
def Obligations.PerformedStoreWritesItsBytes : Prop :=
  ∀ (s : State) (a : Access), PerformsPlainly s a → a.kind = .store →
    ∃ t, exec .memAccessPerform s = .next t ∧
      (∀ i, i < a.size → a.mask.testBit i = true → sget t.mem (a.pa + i) = BitVec.ofNat 8 (a.data / 256 ^ i)) ∧
      (∀ i, i < a.size → a.mask.testBit i = false → sget t.mem (a.pa + i) = sget s.mem (a.pa + i)) ∧
      (∀ b, b < a.pa ∨ a.pa + a.size ≤ b → sget t.mem b = sget s.mem b) ∧
      (∀ b ∈ s.accesses, b.id ≠ a.id → ∃ b' ∈ t.accesses, { b' with peers := b.peers, floor := b.floor } = b) ∧
      (∃ b ∈ t.accesses, b.id = a.id ∧ b.stage = .replying)

/-- MEM_ACCESS_PERFORM of a load (R3, R287, R295): memory stays, and the reply on its way holds the bytes at the address. -/
def Sys2Proof.PerformedLoadReadsMemory : Prop :=
  ∀ (s : State) (a : Access) (sx : Bool), PerformsPlainly s a → a.kind = .load sx →
    ∃ t, exec .memAccessPerform s = .next t ∧ t.mem = s.mem ∧
      ∃ b ∈ t.accesses, b.id = a.id ∧ b.stage = .replying ∧ b.value = getBytes s.mem a.pa a.size

/-- A load or store that is found racing in mode TRAP (R309, R310, R412): it does not perform; memory stays, the access is parked with its report, and
the race trap is pending for its lane, after what was pending before. -/
def Obligations.RacingAccessIsParked : Prop :=
  ∀ (s : State) (a : Access) (r : Nat × Nat × Nat × Nat) (x : Group),
    s.access? s.turn.unit = some a → (a.kind = .store ∨ ∃ sx, a.kind = .load sx) → a.repl = false → a.late = false →
    s.mayPerform a = true → s.raceOf a = some r → (s.core a.core).raceMode a.slot = 0 → a.orphan = false →
    s.group? a.core a.gid = some x → a.lane < x.lanes.length →
    ∃ t, exec .memAccessPerform s = .next t ∧ t.mem = s.mem ∧
      (∃ b ∈ t.accesses, b.id = a.id ∧ b.stage = .parked ∧ b.race = some r) ∧
      ((t.group a.core a.gid).lane a.lane).pend = (x.lane a.lane).pend ++ [⟨18, r.2.2.2 + 1, a.va, 0, some a.id, none⟩]

/-- The other steps of an access (R267, R292, R295, R308, R315), each where it is enabled; where it is not, nothing changes. How an
instruction's accesses share request slots is the model's choice (log entry 73). -/
def Sys2Proof.MemoryEvents : Prop :=
  (∀ s : State, ∀ a, s.access? s.turn.unit = some a → a.stage = .ready → a.queued = false → a.away = false → s.inOrder a = true →
    let granted := s.setAccess { a with stage := .granted }
    let die := dieOfPa a.pa
    let ch := channelOf a.pa
    (s.isHbm a.pa = false → exec .memRequestSlotGrant s =
      .next ({ s.setAccess { a with stage := .granted, order := s.nextId } with nextId := s.nextId + 1 } : State).clearSkip) ∧
    (s.isHbm a.pa = true → (s.slotLines die ch).contains a.line = true → exec .memRequestSlotGrant s = .next granted.clearSkip) ∧
    (s.isHbm a.pa = true → (s.slotLines die ch).contains a.line = false → s.slotsHeld die ch < 1024 →
      (∀ b ∈ s.accesses, b.id < a.id → b.stage ≠ .ready) →
      exec .memRequestSlotGrant s = .next (granted.slotUsed die ch).clearSkip) ∧
    (s.isHbm a.pa = true → (s.slotLines die ch).contains a.line = false → 1024 ≤ s.slotsHeld die ch →
      exec .memRequestSlotGrant s = .next s.clearSkip)) ∧
  (∀ s : State, ∀ a, s.access? s.turn.unit = some a → a.stage = .replying → a.plainLane = true → a.gid < 32 →
    exec .accessReply s = .next (s.replyAccess a).clearSkip) ∧
  (∀ s : State, ∀ a, s.access? s.turn.unit = some a → a.kind = .store → a.repl = true → s.mayPerform a = true →
    exec .replMulticastStore s = .next (s.multicast a).clearSkip) ∧
  (∀ s : State, ∀ a, s.waitvOf s.turn.unit s.turn.item s.turn.sub = some a → s.mayPerform a = true →
    exec .waitvRecheck s = .next (s.performAccess a).clearSkip) ∧
  (∀ s : State, s.access? s.turn.unit = none → exec .memAccessPerform s = .next s ∧ exec .accessReply s = .next s ∧
    exec .memRequestSlotGrant s = .next s ∧ exec .replMulticastStore s = .next s) ∧
  Happens .settleSweep (fun _ => True) fun s => s.sweep s.turn.unit

/-- FAULT_RECORD_WRITE (R278): where the queue is enabled and has room, the die's oldest waiting record stands in the entry at TAIL, the
TAIL word in memory and the register move on by one modulo 8,192, and no other byte of memory changes; where no record waits, the queue is
off or full, nothing changes. A queue in the on-chip map or the management region is written to nowhere, and the records wait for free
request slots, which is the model's choice (log entry 73). -/
def Sys2Proof.FaultRecordsReachTheQueue : Prop :=
  ∀ s : State,
    let d := s.die s.turn.unit
    let base := bits d.fqbase.toNat 51 19 * 2 ^ 19
    let tail := bits d.fqptr.toNat 44 32
    let head := bits d.fqptr.toNat 12 0
    let entry := base + 64 * (tail % 4096)
    let word := base + 0x40000
    let full := (tail + 8192 - head) % 8192 = 4096
    (d.faults = [] ∨ bit d.fqbase.toNat 0 = false ∨ full → exec .faultRecordWrite s = .next s.clearSkip) ∧
    (∀ r rest, d.faults = r :: rest → bit d.fqbase.toNat 0 = true → ¬ full → s.slotFull entry 64 = false → s.slotFull word 8 = false →
      ∃ t, exec .faultRecordWrite s = .next t ∧ (t.die s.turn.unit).faults = rest ∧
        bits (t.die s.turn.unit).fqptr.toNat 44 32 = (tail + 1) % 8192 ∧ bits (t.die s.turn.unit).fqptr.toNat 12 0 = head ∧
        (∀ b, (b < entry ∨ entry + 64 ≤ b) → (b < word ∨ word + 8 ≤ b) → sget t.mem b = sget s.mem b) ∧
        ((∀ i, i < 2 ^ 19 → s.isOnChip (base + i) = false ∧ s.isMgmt (base + i) = false) →
          getBytes t.mem entry 64 = r.image % 2 ^ 512 ∧ getBytes t.mem word 8 = (tail + 1) % 8192))

/-- SETTLE_SWEEP (R308): the metadata of a sector of the die whose W or R lies 2^38 or more below the highest clock that the die has seen is
dropped; every other sector keeps its metadata, and memory stays. -/
def Sys2Proof.SweepDropsOldMetadata : Prop :=
  ∀ s : State,
    let die := s.turn.unit
    let old (v : Nat) : Bool := decide (2 ^ 38 ≤ ((s.die die).peak + 2 ^ 40 - v) % 2 ^ 40) && stampLt v (s.die die).peak
    let swept (x : Nat) (m : SectorMeta) : Prop := s.homeDie (32 * x) = die ∧ (old m.w = true ∨ old m.r = true)
    ∃ t, exec .settleSweep s = .next t ∧ t.mem = s.mem ∧ t.accesses = s.accesses ∧
      (∀ x m, (x, m) ∈ s.rmeta → swept x m → t.rmeta.find? x = none) ∧
      ∀ x, (∀ m, (x, m) ∈ s.rmeta → ¬ swept x m) → t.rmeta.find? x = s.rmeta.find? x

/-- The reply of a load (R62, R287, R295): its destination receives the value, extended as the form says, in the lane that loaded; the access is
over; other V words of the group stay. -/
def Sys2Proof.LoadReplyWritesItsDestination : Prop :=
  ∀ (s : State) (a : Access) (sx : Bool) (x : Group) (n : Fin 640),
    s.access? s.turn.unit = some a → a.kind = .load sx → a.stage = .replying → a.plainLane = true → a.gid < 32 →
    a.orphan = false → s.poisoned a.pa a.size = false → s.group? a.core a.gid = some x → a.dest = .v n → a.regs = 1 →
    n.val < x.winsize →
    ∃ t, exec .accessReply s = .next t ∧ t.mem = s.mem ∧ (∀ b ∈ t.accesses, b.id ≠ a.id) ∧
      sget (t.group a.core a.gid).v (32 * n.val + a.lane) = BitVec.ofNat 32 a.result ∧
      ∀ k, k ≠ 32 * n.val + a.lane → sget (t.group a.core a.gid).v k = sget x.v k

/-- The steps of naps, barriers, fills and the storage map (R92, R103, R158, R164, R175, R178, R179). -/
def Sys2Proof.CoreEvents : Prop :=
  (∀ s : State, ∀ x u, s.group? s.turn.unit s.turn.item = some x → (x.lane s.turn.sub).wait = .nap u → u ≤ s.clk →
    exec .napExpiry s = .next (s.onLane s.turn.unit s.turn.item s.turn.sub fun k =>
      { k with wait := .none, pc := nextPc k.pc }).clearSkip) ∧
  (∀ s : State, ∀ b, s.turn.flag = false → (s.core s.turn.unit).cbar.find? (16 * s.turn.item + s.turn.sub) = some b →
    exec .barrierRelease s = .next (s.onCore s.turn.unit fun k => k.mapGroups fun x =>
      if x.slot = s.turn.item then x.passBarrier (fun l => l.passesCbar s.turn.sub b.phase) b.passed else x).clearSkip) ∧
  (∀ s : State, ∀ q, (s.core s.turn.unit).fills.find? (fun q => q.id == s.turn.item) = some q →
    exec .sfillComplete s = .next (s.onCore s.turn.unit fun k => k.completeFill q).clearSkip) ∧
  (∀ s : State, ∀ v g i, (s.core s.turn.unit).spmapNew = some (v, g, i) →
    ∃ t, exec .spmapWrite s = .next t ∧ (t.core s.turn.unit).spmap = v ∧ (t.core s.turn.unit).spmapNew = none ∧
      ∀ b, (∃ j ∈ [0, 1, 2, 3], b / 4096 ∈ spmapUnits v.toNat j ∧ b / 4096 ∉ spmapUnits (s.core s.turn.unit).spmap.toNat j) →
        sget (t.core s.turn.unit).spad b = 0#8) ∧
  (∀ s : State, ∀ v g i, (s.core s.turn.unit).accownNew = some (v, g, i) →
    (∀ t ∈ [0, 1, 2, 3], ownOf v.toNat t ≠ ownOf (s.core s.turn.unit).accown.toNat t → (s.core s.turn.unit).accBusy t = false) →
    ∃ t, exec .accownWrite s = .next t ∧ (t.core s.turn.unit).accown = v ∧ (t.core s.turn.unit).accownNew = none) ∧
  Happens .bankReady (fun _ => True) (fun s => s.onCore s.turn.unit fun k => k.bankReady s.turn.item) ∧
  Happens .landingBufferMove (fun _ => True) fun s => s.onCore s.turn.unit Core.landingMove

/-- BANK_READY and LANDING_BUFFER_MOVE (R178, R199): a bank that fills becomes READY with its block, which stays unless nobody needs it any
more, and the tag that counts the fill drops by one; the oldest block of the landing buffer moves into the lowest EMPTY bank, which
fills. Another bank is not filled, and where there is nothing to do nothing changes. -/
def Sys2Proof.BanksFill : Prop :=
  ∀ s : State,
    let u := s.turn.unit
    let k := s.core u
    let b := s.turn.item
    let x := k.bank b
    (x.st ≠ 1 → exec .bankReady s = .next (s.setCore u k).clearSkip) ∧
    (x.st = 1 → b < 2 → k.banks.length = 2 → ∃ t, exec .bankReady s = .next t ∧ t.mem = s.mem ∧
      (x.releasing = false → (∀ r, x.ride = some r → r.users ≠ []) →
        (t.core u).bank b = { x with st := 2, tag := none }) ∧
      (∀ g n y, x.tag = some (g, n) → k.groups.find? g = some y → x.owner = some y.uid → n < y.tags.length →
        ((t.group u g).tag n).count = (y.tag n).count - 1)) ∧
    (∀ r rest, k.landing = r :: rest → k.banks.length = 2 → ∀ i, [0, 1].find? (fun i => (k.bank i).st == 0) = some i →
      ∃ t, exec .landingBufferMove s = .next t ∧ t.mem = s.mem ∧ (t.core u).landing = rest ∧ ((t.core u).bank i).st = 1 ∧
        ((t.core u).bank i).fmt = r.fmt ∧ ((t.core u).bank i).bytes = r.bytes ∧ ((t.core u).bank i).owner = none ∧
        ((t.core u).bank i).ride = some { r with bytes := [] } ∧ (t.core u).bank (1 - i) = k.bank (1 - i)) ∧
    (k.landing = [] ∨ (k.bank 0).st ≠ 0 ∧ (k.bank 1).st ≠ 0 → exec .landingBufferMove s = .next (s.setCore u k).clearSkip)

/-- ARRAY_START (R165, R188, R190): with no operation streaming, the oldest queued operation starts whose bank is READY, which shares no tile
with an operation submitted earlier and which nothing stops; no other operation, accumulator or bank changes. An operation that an
uncorrectable word has ended counts as submitted earlier until it is resumed. ADPT reads its adapter block at its start, the model's
choice (log entry 42). -/
def Sys2Proof.ArrayStartsTheOldest : Prop :=
  ∀ s : State,
    let u := s.turn.unit
    let k := s.core u
    let may (earlier : List MatOp) (o : MatOp) : Prop :=
      o.running = false ∧ k.weightReady o = true ∧ (∀ e ∈ earlier, o.sharesTile e = false) ∧ k.opStopped o = false
    ((∃ o ∈ k.queue, o.running = true ∧ o.streamed = false) → exec .arrayStart s = .next (s.setCore u k).clearSkip) ∧
    ∀ before op after, k.queue = before ++ op :: after → (∀ o ∈ k.queue, o.running = true → o.streamed = true) →
      may (k.heldSteps ++ before) op → (∀ a o b, before = a ++ o :: b → ¬ may (k.heldSteps ++ a) o) → k.adapterUncorr op = false →
      ∃ t o, exec .arrayStart s = .next t ∧ o ∈ (t.core u).queue ∧ o.id = op.id ∧ o.running = true ∧ o.slices = op.slices ∧
        o.stages = op.stages ∧ (∀ q ∈ (t.core u).queue, q.id ≠ op.id → q ∈ k.queue) ∧ (t.core u).acc = k.acc ∧
        (t.core u).banks = k.banks ∧ t.mem = s.mem

/-- ARRAY_STREAMING_END (R42, R43, R179, R190, R192). With the flag one slice is carried out: each accumulator of its eight rows takes in the
products of its row of A and its column of the weight block, chunk by chunk in ascending K; no other accumulator changes, and after the
last slice the operation has streamed. Without the flag all slices left are. A slice that would read an uncorrectable word is not
carried out: the operation leaves the queue as it stands for STEP, and UNCORR with cause 3 is pending for the group's live lanes. How
many slices an event carries out is the model's choice (log entry 42), and so is the TVAL of that event (log entry 81). -/
def Sys2Proof.SlicesAccumulate : Prop :=
  ∀ (s : State) (op : MatOp),
    let u := s.turn.unit
    let k := s.core u
    let n := op.dims.2
    let w := k.weights op
    let cols := columnsOf op.ftz w.1 op.dims.1 n w.2.1 w.2.2
    let width := chunkWidth op.fmta w.1
    let inSlice (i : Nat) : Prop := 8 * op.slices ≤ i ∧ i < 8 * op.slices + 8
    k.queue.find? (fun o => o.id == s.turn.item && o.running && !o.streamed) = some op → 8 * op.slices < op.height → n ≤ 128 →
    (k.sliceBad op = false → s.turn.flag = true → ∃ t o, exec .arrayStreamingEnd s = .next t ∧ t.mem = s.mem ∧
      o ∈ (t.core u).queue ∧ o.id = op.id ∧ o.slices = op.slices + 1 ∧ o.streamed = decide (op.height ≤ 8 * (op.slices + 1)) ∧
      (∀ i j v, inSlice i → cols[j]? = some v →
        let a := vecOf op.ftz op.fmta op.dims.1 (k.aRow op i)
        (t.core u).accGet op.acc i j =
          (dotChunks op.ftz width a.scales v.scales (op.dims.1 / width) 0 a.vals v.vals (k.accGet op.acc i j, .none)).1 % 2 ^ 32) ∧
      (∀ q, (∀ i j, inSlice i → j < n → q ≠ accKey op.acc i j) → sget (t.core u).acc q = sget k.acc q)) ∧
    ((k.runSlices op 8).2.2 = false → s.turn.flag = false → op.height ≤ 8 * op.slices + 64 →
      ∃ t o, exec .arrayStreamingEnd s = .next t ∧ t.mem = s.mem ∧ o ∈ (t.core u).queue ∧ o.id = op.id ∧ o.streamed = true ∧
        op.height ≤ 8 * o.slices) ∧
    (k.sliceBad op = true → ∀ x, k.groups.find? op.gid = some x →
      ∃ t, exec .arrayStreamingEnd s = .next t ∧ t.mem = s.mem ∧ (∀ o ∈ (t.core u).queue, o.id ≠ op.id) ∧ (t.core u).acc = k.acc ∧
        (t.group u op.gid).step = x.step ++ [{ op with running := false, streamed := false, cut := false }] ∧
        ∀ l ∈ x.live, ((t.group u op.gid).lane l).pend =
          (x.lane l).pend ++ [⟨19, 3, (k.weightsBad op).headD 0, maskOf x.live, none, none⟩])

/-- ARRAY_OP_COMPLETE (R193, R196): one stage of the chain gives each working value its new one; after the last the operation leaves the
queue, its flags are merged into its group's FPSTAT and its tag drops by one. One stage to an event is the model's choice (log entry 42). -/
def Sys2Proof.OperationsComplete : Prop :=
  ∀ (s : State) (op : MatOp),
    let u := s.turn.unit
    let k := s.core u
    k.queue.find? (fun o => o.id == s.turn.item && o.streamed && !k.opStopped o) = some op →
    (∀ w, op.chain[op.stages]? = some w → op.stages + 1 < op.chain.length → k.stageBad op w = false → s.turn.flag = true →
      op.dims.2 ≤ 128 → ∃ t o, exec .arrayOpComplete s = .next t ∧ t.mem = s.mem ∧ o ∈ (t.core u).queue ∧ o.id = op.id ∧
        o.stages = op.stages + 1 ∧
        ∀ i j, i < op.height → j < op.dims.2 → sget o.work (128 * i + j) = BitVec.ofNat 32 (k.stageValue op w i j).1) ∧
    (op.stages = op.chain.length → ∀ x, k.opGroup op = some x → ∃ t, exec .arrayOpComplete s = .next t ∧ t.mem = s.mem ∧
      (∀ o ∈ (t.core u).queue, o.id ≠ op.id) ∧ (t.core u).acc = k.acc ∧ (t.group u op.gid).fpstat = x.fpstat ||| op.flags ∧
      ∀ n, op.tag = some n → n < x.tags.length → ((t.group u op.gid).tag n).count = (x.tag n).count - 1)

/-- What a lane of ATOM, ATOMR, PACQ, PTRY or PREL finds that may send its request at once: no transaction, an aligned address, a portal that
serves it, no earlier access in the way, and fewer than four requests with a reply outstanding (R319, R322, R326). -/
def Sys2Proof.requestMayIssue (f : FM) (n : Nat) (kind : AccKind) (replies rel : Bool) (s : State) (c : Ctx) (l : Nat) (a : Access) :
    Prop :=
  let va := fmAddr f (s.grp c) l
  (s.grp c).inTx l = false ∧ va % n = 0 ∧ s.portalFails c kind va n = false ∧
  s.laneMayIssue c (rel && !s.toHost c .atomic va) f.scope.toNat l = true ∧ s.logBlocks a = false ∧
  (replies = true → ((s.ofLane c l).filter fun a =>
    match a.kind with | .atomic _ => true | .pacq => true | .ptry => true | _ => false).length < 4)

/-- Atomics and permits issue (R319, R321 to R323, R329, R424) where the requests fit into the queues of their service units: one request for
each active lane in ascending order; the set goes on, but the lanes of PACQ stall until the owner's first reply; memory and registers
stay; with an active lane the group is no longer idempotent. -/
def Obligations.ServiceRequestsIssue : Prop :=
  ∀ f : FM,
    let n := Machine.sizeOf f.sz
    let new (t : State) (c : Ctx) (x : Group) (kind : AccKind) (size regs l : Nat) : Access :=
      t.newAccess c l f kind (fmAddr f x l) size f.d regs
    let idem (c : Ctx) (t : State) : State := if c.act.isEmpty then t else t.notIdem c
    let room (s : State) (c : Ctx) : Prop := s.unitsFull (c.act.filterMap fun l => s.requestAt c (fmAddr f (s.grp c) l)) = false
    let sends (i : Instr) (uses : List Use) (kind : AccKind) (size : Nat) (replies rel : Bool)
        (mk : State → Ctx → Group → Nat → Access) : Prop :=
      Completes i [] uses
        (fun s c => room s c ∧ ∀ l ∈ c.act, requestMayIssue f size kind replies rel s c l (mk s c (s.grp c) l))
        (fun s c => idem c (c.act.foldl (fun t l => t.addAccess (mk t c (s.grp c) l)) (s.advance c)))
    let sem := decide (2 ≤ f.sem.toNat)
    let pacq (t : State) (c : Ctx) (x : Group) (l : Nat) : Access := { new t c x .pacq 8 2 l with regs := 1 }
    sends (.atom f) [dstData f.d n, src64 f.a, src32 f.b, srcData f.c n] (.atomic f.fn.toNat) n true sem (fun t c x l =>
      { new t c x (.atomic f.fn.toNat) n (max 1 (n / 4)) l with data := x.rdData f.c l n, data2 := x.rdData f.d l n }) ∧
    sends (.atomr f) [src64 f.a, src32 f.b, srcData f.c n] (.atomicR f.fn.toNat) n false sem (fun t c x l =>
      { new t c x (.atomicR f.fn.toNat) n 0 l with data := x.rdData f.c l n, dest := .none }) ∧
    sends (.ptry f) [dst32 f.d, src64 f.a, src32 f.b] .ptry 8 true false (fun t c x l => { new t c x .ptry 8 2 l with regs := 1 }) ∧
    sends (.prel f) [src64 f.a, src32 f.b] .prel 8 false true (fun t c x l => { new t c x .prel 8 0 l with dest := .none }) ∧
    CompletesWaiting (.pacq f) [] [dst32 f.d, src64 f.a, src32 f.b]
      (fun s c => room s c ∧ ∀ l ∈ c.act, requestMayIssue f 8 .pacq true false s c l (pacq s c (s.grp c) l))
      (fun s c => idem c (c.act.foldl (fun t l =>
        (t.addAccess (pacq t c (s.grp c) l)).onLane c.core c.gid l fun k => { k with wait := .reply t.nextId })
        ((s.advance c).retry c c.act)))

/-- What a service unit does with a request in this package's own memory (R318, R319, R323, R329): the old value is what an atomic returns, and exactly
the word at the address takes the new one; a held permit is refused to PTRY with 2, granted where it is free with 0, and its
holder is told 1. That a request whose data are uncorrectable parks undone, with UNCORR pending and cause 1, is the model's choice (log
entry 39). -/
def Sys2Proof.ServiceUnitPerforms : Prop :=
  ∀ (s : State) (a : Access), s.access? s.turn.unit = some a → a.queued = false → a.away = false → a.late = false → a.irrev = false →
    isHost a.pa = false → s.isOnChip a.pa = false → s.isMgmt a.pa = false → s.mayPerform a = true → (s.core a.core).ckptMode ≠ 1 →
    a.mask = 2 ^ a.size - 1 →
    (s.failing a = true → a.orphan = false → exec .svcRequestPerform s = .next (s.parkBad a 1).clearSkip) ∧
    (s.failing a = false →
    (∀ op, a.kind = .atomic op ∨ a.kind = .atomicR op →
      ∃ t, exec .svcRequestPerform s = .next t ∧
        (∃ b ∈ t.accesses, b.id = a.id ∧ b.stage = .replying ∧ b.value = getBytes s.mem a.pa a.size) ∧
        (∀ i, i < a.size → sget t.mem (a.pa + i) = BitVec.ofNat 8
          ((globalRmw op).apply (8 * a.size) (getBytes s.mem a.pa a.size) a.data a.data2 / 256 ^ i)) ∧
        ∀ b, b < a.pa ∨ a.pa + a.size ≤ b → sget t.mem b = sget s.mem b) ∧
    (a.kind = .ptry →
      let p := s.permitAt a.pa
      let fid := s.fid a.core a.gid a.lane
      ∃ t, exec .svcRequestPerform s = .next t ∧
        ∃ b ∈ t.accesses, b.id = a.id ∧ b.stage = .replying ∧
          b.value = if p.held && p.holder == fid then 1 else if p.held then 2 else 0))

/-- What a service unit does with a permit in this package's own memory (R328 to R330). A free permit is granted to PACQ and PTRY with 0 and its
word then says that it is held, by whom, and that nobody waits; its holder is told 1. PACQ of a permit that another fibre holds takes
the last place of its queue and its lane waits, or, where the unit has 256 waiters, is turned away and tries again. PREL by the holder
frees a permit that nobody waits for, and otherwise hands it to the first waiter, whose PACQ is answered with 0 as an acquire; PREL by
another fibre raises the service trap with cause 3 and changes nothing. -/
def Sys2Proof.PermitsAreGrantedAndHandedOver : Prop :=
  ∀ (s : State) (a : Access), s.access? s.turn.unit = some a → a.queued = false → a.away = false → a.late = false → a.irrev = false →
    isHost a.pa = false → s.isOnChip a.pa = false → s.isMgmt a.pa = false → s.mayPerform a = true → (s.core a.core).ckptMode ≠ 1 →
    a.size = 8 → a.mask = 2 ^ 8 - 1 → s.failing a = false →
    let p := s.permitAt a.pa
    let fid := s.fid a.core a.gid a.lane
    let word (t : State) : Nat := getBytes t.mem a.pa 8
    let told (t : State) (v : Nat) : Prop := ∃ b ∈ t.accesses, b.id = a.id ∧ b.stage = .replying ∧ b.value = v
    let same (t : State) : Prop := ∀ b, b < a.pa ∨ a.pa + 8 ≤ b → sget t.mem b = sget s.mem b
    (a.kind = .pacq ∨ a.kind = .ptry → p.held = false →
      ∃ t, exec .svcRequestPerform s = .next t ∧ told t 0 ∧ word t = (2 ^ 63 + fid) % 2 ^ 64 ∧ same t) ∧
    (a.kind = .pacq ∨ a.kind = .ptry → p.held = true → p.holder = fid →
      ∃ t, exec .svcRequestPerform s = .next t ∧ told t 1 ∧ word t = p.word % 2 ^ 64 ∧ same t) ∧
    (a.kind = .pacq → p.held = true → p.holder ≠ fid → (s.cluster (s.unitOf a.pa)).waiters < 256 →
      ∃ t, exec .svcRequestPerform s = .next t ∧ same t ∧ (∃ b ∈ t.accesses, b.id = a.id ∧ b.queued = true ∧ b.stage = .ready) ∧
        t.permitAt a.pa = { p with waiters := p.waiters ++ [.lane a.id] } ∧
        word t = (2 ^ 63 + (p.waiters.length + 1) * 2 ^ 40 + p.holder) % 2 ^ 64) ∧
    (a.kind = .pacq → p.held = true → p.holder ≠ fid → 256 ≤ (s.cluster (s.unitOf a.pa)).waiters →
      ∃ t, exec .svcRequestPerform s = .next t ∧ t.mem = s.mem ∧
        ∃ b ∈ t.accesses, b.id = a.id ∧ b.away = true ∧ b.stage = .ready ∧ b.since = s.clk) ∧
    (a.kind = .prel → p.held = true → p.holder = fid → p.waiters = [] →
      ∃ t, exec .svcRequestPerform s = .next t ∧ word t = 0 ∧ same t) ∧
    (∀ id ms b, a.kind = .prel → p.held = true → p.holder = fid → p.waiters = .lane id :: ms → id ≠ a.id → s.access? id = some b →
      ∃ t, exec .svcRequestPerform s = .next t ∧ same t ∧
        word t = (2 ^ 63 + ms.length * 2 ^ 40 + s.fid b.core b.gid b.lane) % 2 ^ 64 ∧
        (ms ≠ [] → t.permitAt a.pa = ⟨true, s.fid b.core b.gid b.lane, ms⟩) ∧
        ∃ r ∈ t.accesses, r.id = id ∧ r.stage = .replying ∧ r.value = 0 ∧ r.queued = false ∧ r.horizon = some r.stamp) ∧
    (∀ x, a.kind = .prel → p.held = false ∨ p.holder ≠ fid → s.group? a.core a.gid = some x → a.lane < x.lanes.length →
      ∃ t, exec .svcRequestPerform s = .next t ∧ t.mem = s.mem ∧ (∀ b ∈ t.accesses, b.id ≠ a.id) ∧
        ((t.group a.core a.gid).lane a.lane).pend = (x.lane a.lane).pend ++ [⟨14, 3, a.va, 0, none, none⟩])

/-- The other steps of the service units (R326, R330, R331, R334, R337, R343) where they are enabled. -/
def Sys2Proof.ServiceUnitEvents : Prop :=
  (∀ s : State, ∀ a, s.access? s.turn.unit = some a → a.away = true → a.stage = .ready → a.queued = false →
    a.since + 256 ≤ s.clk →
    exec .pacqRetry s = .next (s.performRequest a).clearSkip) ∧
  (∀ s : State, ∀ a, s.access? s.turn.unit = some a → isHost a.pa = true → a.isRequest = true → s.mayPerform a = true →
    exec .portalCompletion s = .next (s.portalDone a s.turn.flag).clearSkip) ∧
  Happens .fallbackPermitGrant (fun _ => True) (fun s => s.grantFallback s.turn.unit) ∧
  Happens .txValidateTimer (fun _ => True) (fun s => s.validateTimer s.turn.unit s.turn.item s.turn.sub) ∧
  Happens .txValidateReply (fun _ => True) (fun s => s.validateReply s.turn.unit s.turn.item s.turn.sub) ∧
  (∀ (s : State) (core gid l : Nat),
    let t := ((s.group core gid).lane l).tx
    t.active = true → t.irrev = false → t.validating.isSome = true →
      (s.validateWaits core t = true → s.validateReply core gid l = s) ∧
      (s.validateWaits core t = false → s.validates t = false → s.validateReply core gid l = s.abortTx core gid l 2 id) ∧
      (s.validateWaits core t = false → s.validates t = true → s.validateReply core gid l = s.onLane core gid l fun k =>
        { k with tx := { k.tx with validating := none } })) ∧
  (∀ (s : State) (core gid l : Nat),
    let t := ((s.group core gid).lane l).tx
    t.active = true → t.irrev = false → t.since + 65536 ≤ s.clk → l < (s.group core gid).lanes.length →
    (s.group? core gid).isSome = true →
      (((s.validateTimer core gid l).group core gid).lane l).tx = { t with validating := some true, since := t.since + 65536 })

/-- TBEGIN, TEND, TABORT, TSTATE and TSTATE.CLR (R331, R335, R337, R339, R340): the active lanes act in ascending order. TBEGIN's abort target is
checked first, as a transfer's is (R50); that the set stalls at the TBEGIN where the target's line does not translate is the model's choice
(log entry 21). TEND waits as a release for the lanes whose run it ends, and leaves its mask to the lanes that aborted with CONF; that the
commits of a TEND are made in one step after a new translation of their pages, and when its mask is set, is the model's choice (log
entry 14). TSTATE writes the transaction word; .CLR then clears its parts. -/
def Obligations.TransactionInstructions : Prop :=
  (∀ f : FK, ∀ s c, CanIssue s c [] [dst32 f.d] →
    let goal := txTarget f c.pc
    (c.act = [] ∨ s.target c goal = .ok →
      exec (.tbegin f) s =
        .next ((c.act.foldl (fun s l => s.beginTx c f l) ((s.begun c [dst32 f.d]).advance c)).finish c)) ∧
    (∀ kind, c.act ≠ [] → s.target c goal = .trap kind → exec (.tbegin f) s =
      .next ((s.enterTraps c.core c.gid (fun _ => ⟨kind, 0, c.pc, goal.toNat, 0, none⟩) c.act).finish c)) ∧
    (c.act ≠ [] → s.target c goal = .wait → exec (.tbegin f) s = .next (s.skipSet c)) ∧
    (∀ e, c.act ≠ [] → s.target c goal = .fault e → exec (.tbegin f) s = .next (s.fetchFault c goal.toNat c.act e))) ∧
  (∀ f : FK, ∀ s c, CanIssue s c [f.mask] [] →
    let b := s.begun c []
    let commits := c.act.filter fun l => (b.grp c).inTx l && ((b.grp c).lane l).tx.depth == 1
    c.act ≠ [] → b.mayRelease c.core c.gid 3 (c.act.filter fun l => ((b.grp c).lane l).endsRun) = true →
    (∀ l ∈ commits, b.commitFault c.core c.gid l c.mode = none) → b.commitWaits c.core c.gid c.mode commits = false →
    let moved := commits.foldl (fun s l => s.relocate c.core c.gid l c.mode) (b.advance c)
    let t := c.act.foldl (fun s l => s.endTx c.core c.gid l) moved
    let code (l : Nat) : Nat := ((t.grp c).lane l).tx.code
    let u := if commits.any (fun l => code l == 0) then t.notIdem c else t
    ∀ s', (u.onGrp c fun y => y.mset f.mask.val (maskOf (commits.filter fun l => code l == 2))).submitAll c.core c.gid = some s' →
      exec (.tend f) s = .next (s'.finish c)) ∧
  (∀ f : FI, CompletesWaiting (.tabort f) [] []
    (fun s c => s.mayRelease c.core c.gid 3
      (c.act.filter fun l => ((s.grp c).lane l).tx.active && ((s.grp c).lane l).tx.irrev) = true)
    fun s c => c.act.foldl (fun s l => s.tabort c (f.imm.toNat % 256) l) (s.advance c)) ∧
  (∀ f : F3,
    WritesReg (.tstate f) [] [dst32 f.d] f.d false (fun x _ l => (x.lane l).tx.word) ∧
    WritesReg (.tstateClr f) [] [dst32 f.d] f.d false (fun x _ l => (x.lane l).tx.word) fun c x =>
      x.onLanes c.act fun _ k =>
        { k with tx := { k.tx with count := 0, code := 0, ucode := 0, trapk := 0, deny := false, wide := false } })

/-- The abort of a transactional lane (R331, R333): its logs are empty and it is in no transaction, TSTATE with the code stands in the register that
TBEGIN named, the lane stands at its abort target, and no store of the transaction has reached memory. -/
def Obligations.AbortRestoresTheLane : Prop :=
  ∀ (s : State) (core gid l code : Nat) (x : Group) (n : Fin 640),
    s.group? core gid = some x → l < x.lanes.length → (x.lane l).tx.dest = .v n → n.val < x.winsize →
    let t := s.abortTx core gid l code id
    let k := (t.group core gid).lane l
    t.mem = s.mem ∧ k.tx.active = false ∧ k.tx.depth = 0 ∧ k.tx.reads = [] ∧ k.tx.writes = [] ∧ k.tx.code = code ∧
    k.tx.count = min ((x.lane l).tx.count + 1) 15 ∧ k.pc = (x.lane l).tx.target ∧ k.wait = .none ∧
    sget (t.group core gid).v (32 * n.val + l) = BitVec.ofNat 32 k.tx.word ∧
    (∀ a ∈ t.accesses, ¬(a.core = core ∧ a.gid = gid ∧ a.lane = l ∧ a.tx = true))

/-- ACP and ACPS (R344, R345, R347, R349), with no transactional lane, no failing lane, the earlier accesses performed and room in the lane-transfer
entries: one transfer for each active lane, the tag's count rises by one for each, and the set goes on. That a copy-in of an irrevocable
lane ends the group's idempotence is the model's choice (log entry 74). -/
def Sys2Proof.LaneCopiesIssue : Prop :=
  ∀ f : FM,
    let uses := [src32 f.d, src64 f.a, src32 f.b, { tagUse f.c with noneOk := false }]
    let holds (i : Instr) (out : Bool) : Prop :=
      Completes i [] uses
        (fun s c => (∀ l ∈ c.act, (s.grp c).inTx l = false ∧ s.acpFail f c l = none) ∧
          s.mayRelease c.core c.gid 3 c.act = true ∧ s.laneEntries c.core + c.act.length ≤ 1024) fun s c =>
        let t := c.act.foldl (fun t l => t.addAccess (s.acpAccess f c out ((s.grp c).maxC c.act) l)) (s.advance c)
        let t := t.onGrp c fun x => match tagOf f.c with
          | some k => c.act.foldl (fun x _ => x.onTag k Tag.add) x
          | none => x
        if (out && !c.act.isEmpty) || c.act.any (fun l => ((s.grp c).lane l).tx.active) then t.notIdem c else t
    holds (.acp f) false ∧ holds (.acps f) true

/-- A copy instruction is queued (R344, R345, R347, R351): with active lanes, none of them in a transaction, their earlier accesses performed and room in the
die's queue, one request of the lowest active lane stands last in the queue, with its operands; with a tag the tag counts one more and the set
goes on, without one the whole set stalls on the request; memory stays. -/
def Sys2Proof.QueuesCopy (i : Instr) (uses : List Use) (ok : State → Ctx → Prop) (tag : Option Nat)
    (what : State → Ctx → EngReq → Prop) : Prop :=
  ∀ s c, CanIssue s c [] uses → (s.grp c).tags.length = 8 →
    let b := s.begun c uses
    let d := b.die (dieOf c.core)
    c.act ≠ [] → (∀ l ∈ c.act, (b.grp c).inTx l = false) → ok b c → b.mayRelease c.core c.gid 3 c.act = true →
    d.engine.length < 1024 → d.engineOf c.core c.slot < 64 →
    ∃ t r, exec i s = .next t ∧ (t.die (dieOf c.core)).engine = d.engine ++ [r] ∧ t.mem = s.mem ∧
      r.core = c.core ∧ r.gid = c.gid ∧ r.lane = c.low ∧ r.mode = c.mode ∧ r.done = 0 ∧ r.ended = false ∧ r.tag = tag ∧ what b c r ∧
      (∀ k, tag = some k → (t.grp c).tag k = ((b.grp c).tag k).add ∧ ∀ l ∈ c.set, ((t.grp c).lane l).pc = c.next) ∧
      (tag = none → ∀ l ∈ c.set, ((t.grp c).lane l).wait = .reply r.id ∧ ((t.grp c).lane l).pc = ((s.grp c).lane l).pc)

/-- XCOPY, XGATH, XFILL and XMCAST (R351, R352) are queued where their operands of the lowest active lane are legal and not empty. That
XMCAST writes its roles in whatever cluster of the operator they stand, and that its A has 64 bits, is the model's choice (log entry 25). -/
def Sys2Proof.CopyRequestsAreQueued : Prop :=
  (∀ f : F3,
    let dsp := f.md.getLsbD 0
    let ssp := f.md.getLsbD 1
    let phys := f.md.getLsbD 2
    let at_ (s : State) (c : Ctx) (sp : Bool) (o : Operand) : Nat :=
      if sp then (s.core c.core).partBase c.slot + spadOperand o (s.grp c) c.low else globalOperand o phys (s.grp c) c.low
    let legal (s : State) (c : Ctx) (sp : Bool) (o : Operand) : Prop :=
      sp = true → s.spadSide c (spadOperand o (s.grp c) c.low) ((s.grp c).rd32 f.b c.low) = none
    QueuesCopy (.xcopy f) [srcW (!dsp) f.d, srcW (!ssp) f.a, src32 f.b, tagUse f.c]
      (fun s c => (phys = true → c.mode ≠ .u) ∧ legal s c dsp f.d ∧ legal s c ssp f.a ∧ (s.grp c).rd32 f.b c.low ≠ 0)
      (tagOf f.c) fun s c r => r.kind = .copy dsp ssp ∧ r.bytes = (s.grp c).rd32 f.b c.low ∧ r.phys = phys ∧
        r.dst = at_ s c dsp f.d ∧ r.src = at_ s c ssp f.a) ∧
  (∀ f : F3,
    let row := 2 ^ f.md.toNat
    let b (s : State) (c : Ctx) : Nat := (s.grp c).rd64 f.b c.low
    let n (s : State) (c : Ctx) : Nat := bits (b s c) 47 32
    let src (s : State) (c : Ctx) : Nat := globalOperand f.a false (s.grp c) c.low
    QueuesCopy (.xgath f) [src32 f.d, src64 f.a, src64 f.b, tagUse f.c]
      (fun s c => bits (b s c) 63 48 = 0 ∧ bits (b s c) 31 19 = 0 ∧ n s c ≠ 0 ∧ src s c % min row 32 = 0 ∧
        s.spadSide c (spadOperand f.d (s.grp c) c.low) (n s c * row) = none ∧ s.spadSide c (bits (b s c) 18 0) (4 * n s c) = none)
      (tagOf f.c) fun s c r =>
        r.kind = .gath row ((s.core c.core).partBase c.slot + bits (b s c) 18 0) ∧ r.bytes = n s c * row ∧ r.src = src s c ∧
        r.dst = (s.core c.core).partBase c.slot + spadOperand f.d (s.grp c) c.low) ∧
  (∀ f : F3,
    let w := if f.md.getLsbD 0 then 8 else 4
    let phys := f.md.getLsbD 2
    let dst (s : State) (c : Ctx) : Nat := globalOperand f.d phys (s.grp c) c.low
    let n (s : State) (c : Ctx) : Nat := (s.grp c).rd32 f.b c.low
    QueuesCopy (.xfill f) [src64 f.d, srcW (f.md.getLsbD 0) f.a, src32 f.b, tagUse f.c]
      (fun s c => (phys = true → c.mode ≠ .u) ∧ dst s c % w = 0 ∧ n s c % w = 0 ∧ n s c ≠ 0)
      (tagOf f.c) fun s c r =>
        r.kind = .fill ((s.grp c).rd f.a c.low (f.md.getLsbD 0)) w ∧ r.bytes = n s c ∧ r.phys = phys ∧ r.dst = dst s c) ∧
  (∀ f : FK,
    let i := f.imm.toNat
    let roles := (List.range 16).filter fun r => bit i r
    let d (s : State) (c : Ctx) : Nat := (s.grp c).rd64 f.d c.low
    let n (s : State) (c : Ctx) : Nat := (s.grp c).rd32 f.b c.low
    QueuesCopy (.xmcast f) [src64 f.d, src64 f.a, src32 f.b]
      (fun s c => roles ≠ [] ∧ n s c ≠ 0 ∧ n s c % 4 = 0 ∧ bits (d s c) 63 51 = 0 ∧ bits (d s c) 31 19 = 0 ∧
        bits (d s c) 18 0 % 4 = 0 ∧ (bit i 20 = true → bits (d s c) 50 32 % 8 = 0) ∧
        (bit i 21 = true → s.spadSide c (bits ((s.grp c).rd64 f.a c.low) 18 0) (n s c) = none) ∧
        ∀ r ∈ roles, ∃ k j, s.roleAnywhere c.core (s.grp c) r = some (k, j) ∧
          bits (d s c) 18 0 + n s c ≤ (s.core k).partSize j ∧
          (bit i 20 = true → bits (d s c) 50 32 + 8 ≤ (s.core k).partSize j))
      (if bit i 19 then some (bits i 18 16) else none) fun s c r =>
        r.kind = .mcast (bit i 21) ∧ r.bytes = n s c ∧ r.dst = bits (d s c) 18 0 ∧
        r.targets = roles.filterMap (s.roleAnywhere c.core (s.grp c)) ∧
        r.arrive = (if bit i 20 then some (bits (d s c) 50 32) else none))

/-- The steps of copies (R273, R344, R345, R349, R351, R352) where they are enabled: a walk ends, a lane transfer is carried out, a free engine
takes the oldest request that has a piece to move, an engine ends its piece, an arrival is made at a target, a request that is spent
leaves the queue and its tag drops or its lanes go on. That an engine takes a piece in one event and moves it in the next is the model's
choice (log entry 26), and so is that lanes which stall on a request without a tag acquire its stamp (log entry 27). -/
def Obligations.CopyEvents : Prop :=
  (∀ s : State,
    let mine (a : Access) : Bool := a.core == s.turn.unit && a.gid == s.turn.item && a.seqno == s.turn.sub
    let t := s.walksEnd s.turn.unit s.turn.item s.turn.sub (fun a => s.mayTranslate a && !a.isWhole) s.copyData
    exec .tlbWalkComplete s = .next ((t.accesses.filter fun a =>
      mine a && a.stage == .issued && a.isWhole && t.mayTranslate a).foldl (fun t a => match a.kind with
        | .commit _ _ _ => t.recommit a
        | _ => t.loadProj a) t).clearSkip) ∧
  (∀ s : State, ∀ a, s.access? s.turn.unit = some a → a.isCopy = true → s.copyWaits a = false →
    (a.size = 0 ∧ a.stage = .ready ∨ s.mayPerform a = true) →
    exec .acpTransferComplete s = .next (s.carryTransfer a).clearSkip) ∧
  (∀ s : State, ∀ r, s.turn.flag = true →
    (s.die s.turn.unit).engine.find? (fun r => !r.moving && s.pieceReady r) = some r → (s.die s.turn.unit).moving < 64 →
    exec .enginePiece s = .next (s.setEng s.turn.unit { r with moving := true }).clearSkip) ∧
  (∀ s : State, ∀ r, s.turn.flag = false →
    (s.die s.turn.unit).engine.find? (fun r => r.id == s.turn.item && r.moving) = some r →
    let q := s.movePiece s.turn.unit 16384 0 { r with moving := false }
    exec .enginePiece s = .next (
      if q.2.done < q.2.bytes ∧ q.2.ended = false ∧ q.2.fault = none then
        q.1.onDie s.turn.unit fun d => { d with engine := (d.engine.filter fun e => e.id != q.2.id) ++ [q.2] }
      else q.1.setEng s.turn.unit q.2).clearSkip) ∧
  (∀ s : State, ∀ r core slot rest a, (s.die s.turn.unit).engine.find? (fun r => r.id == s.turn.item && r.done == r.bytes && !r.ended) = some r →
    (∃ sp, r.kind = .mcast sp) → r.targets = (core, slot) :: rest → r.arrive = some a →
    let t := s.setEng s.turn.unit { r with targets := rest }
    let p := (t.core core).partBase slot + a
    exec .xmcastTargetArrive s = .next
      (if ((t.core core).arrWord p).expect = 0 then (t.engErr r 4).clearSkip
       else (t.onCore core fun k => (k.arriveAt p 1 r.stamp).1).clearSkip)) ∧
  (∀ s : State, ∀ r k x, (s.die s.turn.unit).engine.find? (fun r => r.id == s.turn.item && r.spent) = some r →
    r.tag = some k → s.group? r.core r.gid = some x → x.uid = r.uid → k < x.tags.length →
    ∃ t, exec .engineRequestComplete s = .next t ∧ (∀ q ∈ (t.die s.turn.unit).engine, q.id ≠ r.id) ∧
      (t.group r.core r.gid).tag k = (x.tag k).drop r.stamp) ∧
  (∀ s : State, ∀ r x, (s.die s.turn.unit).engine.find? (fun r => r.id == s.turn.item && r.spent) = some r →
    r.tag = none → r.kind ≠ .adapter → s.group? r.core r.gid = some x → x.uid = r.uid →
    ∃ t, exec .engineRequestComplete s = .next t ∧ (∀ q ∈ (t.die s.turn.unit).engine, q.id ≠ r.id) ∧
      ∀ l ∈ x.live, (x.lane l).wait = .reply r.id →
        ((t.group r.core r.gid).lane l).wait = .none ∧ ((t.group r.core r.gid).lane l).pc = nextPc (x.lane l).pc ∧
        ((t.group r.core r.gid).lane l).h = ((x.lane l).acquire r.stamp).h)

/-- An instruction whose active lanes act in ascending order (R234): where none fails and none must wait, each lane has its effect on what
the lanes before it leave, with its operands as they stand at issue (R62), and the set goes on; where some fail, exactly those take
their traps and no lane has an effect. -/
def Sys2Proof.LanesAct (i : Instr) (uses : List Use) (user : Bool) (waits : State → Ctx → Bool)
    (lane : Ctx → Group → State → Nat → Except TrapInfo State) : Prop :=
  ∀ s c, CanIssue s c [] uses → (user = true ∨ c.mode ≠ .u) →
    let b := s.begun c uses
    let r := b.laneFold (lane c (b.grp c)) c.act
    (r.2 = [] → waits b c = false → exec i s = .next ((r.1.advance c).finish c)) ∧
    (r.2 ≠ [] → exec i s = .next ((b.trapLanes c r.2).finish c))

/-- Instructions on the rows of a tile (R234 to R238): RHDR reads a field of a row's record for each lane; RHDR.FLAGS, TKFWD, TKPARK, TKDONE and
TKNEW act lane by lane once the lanes' earlier accesses are performed. That a lane's trap comes before the stall for its release is the
model's choice (log entry 45), as is each lane's own first failing check (log entry 9). -/
def Sys2Proof.TokenRowInstructions : Prop :=
  ∀ f : F3,
    let wide := rhdrWide f.fn.toNat
    let acts (i : Instr) (uses : List Use) := LanesAct i uses true
    let waits (s : State) (c : Ctx) : Bool := !s.mayRelease c.core c.gid 3 c.act
    let two := [src32 f.a, src32 f.b]
    let run := if f.fn = 0 then [] else if f.fn.toNat ≤ 8 then [{ srcRun f.c f.fn.toNat false with noneOk := false }] else [src32 f.c]
    (∀ v : Group → Ctx → Nat → Nat, Completes (.rhdr f) [] [dstW wide f.d, src32 f.a]
      (fun s c => ∀ l ∈ c.act, s.rhdr c f.fn.toNat ((s.grp c).rd32 f.a l) l = .ok (v (s.grp c) c l)) fun s c =>
        ((s.advance c).onGrp c fun x => x.wr c f.d wide (v (s.grp c) c)).draw) ∧
    acts (.rhdrFlags f) two (fun _ _ => false) (fun c x s l =>
      let w := x.rd32 f.a l
      let b := x.rd32 f.b l
      if 32 ≤ b then .error (operandTrap c)
      else match x.heldRow w with
        | .ok r => .ok (s.onDie (dieOf c.core) fun d => d.onRec r fun y => { y with hdr := y.hdr ||| b * 2 ^ 58 })
        | .error e => if e = 2 ∧ w < x.tileh ∧ w < 64 ∧ x.tile[w]? = some .pad then .ok s else .error (tokenTrap c e w)) ∧
    acts (.tkfwd f) ([src64 f.d, src32 f.a, src32 f.b] ++ run) waits (fun c x s l => s.fwdLane f c x l) ∧
    acts (.tkpark f) two waits (fun c x s l =>
      let w := x.rd32 f.a l
      let code := x.rd32 f.b l % 2 ^ 16
      match (s.grp c).heldRow w with
      | .error e => .error (tokenTrap c e w)
      | .ok r =>
        if 1 < ((s.die (dieOf c.core)).recs.find? r).elim 0 (fun y => y.join) then .error (tokenTrap c 4 w)
        else if c.mode = .u ∧ 0xFFF0 ≤ code then .error (tokenTrap c 5 w)
        else
          let t := s.tickLane c l
          .ok (((t.onGrp c fun x => { x with tile := setAt x.tile w .pad, idem := false }).onDie (dieOf c.core) fun d =>
            ((d.park r code).onRec r fun y => { y with release := stampMax y.release ((t.grp c).lane l).c }).cancelPredictions r).noteDie
              (dieOf c.core))) ∧
    acts (.tkdone f) two waits (fun c x s l => s.doneLane f c x false l) ∧
    acts (.tkdoneEnd f) two waits (fun c x s l => s.doneLane f c x true l) ∧
    acts (.tknew f) [dst32 f.d, src64 f.a, src32 f.b, src64 f.c] (fun s c => s.newStalls f c) fun c x s l => s.newRec f c x l

/-- The .ID forms (R236, R237), in S and H mode: lane by lane on PARKED records that their ids name; an id that names none traps its lane.
That a record forwarded by id passes no merge of clones and that traps come before the stall for the release is the model's choice (log
entry 45), and so is that the die of the record says what is local (log entry 80). -/
def Sys2Proof.ParkedRecordInstructions : Prop :=
  ∀ f : F3,
    let holds (i : Instr) (uses : List Use) (lane : Ctx → Group → State → Nat → Except TrapInfo State) : Prop :=
      LanesAct i uses false (fun s c => !s.mayRelease c.core c.gid 3 c.act) lane
    let two := [src32 f.a, src32 f.b]
    holds (.tkdoneId f) two (fun c x s l => s.doneIdLane f c x false l) ∧
    holds (.tkdoneEndId f) two (fun c x s l => s.doneIdLane f c x true l) ∧
    holds (.tkfwdId f) (src64 f.d :: two) (fun c x s l =>
      let w := x.rd32 f.a l
      let n := x.rd32 f.b l
      match s.parkedRec w with
      | none => .error (tokenTrap c 2 w)
      | some (die, r) =>
        let y := ((s.die die).recs.find? r).getD (recOfImage 0)
        if s.isLocal n die && !(s.die die).isBound (n % 256) then .error (tokenTrap c 3 w)
        else
          let t := s.tickLane c l
          let act := if f.d = .none then none else some (x.rd64 f.d l)
          let (y, tags) := y.forwarded n act (tagAdapter y.tag) [255] ((t.grp c).lane l).c
          .ok ((((t.notIdem c).onDie die fun d => (d.onRec r fun _ => y).cancelPredictions r).forwardRec die 0 r tags
            (c.core, x.uid, l) false).noteDie die))

/-- What becomes of a row and its record (R205, R217, R225, R236, R237). A done row's record is freed and the row is gone. The forward that finds
the join count at 1 sets NEXT, ACT, the tag and the new join count, and moves the record: where no earlier forward keeps it back, its
rows wait at the Col unit of an operator of this die, or a packet leaves for another die. A forward that finds a higher count lowers it
by one and the record stays. A forward to an operator that is not bound has cause OP, one of a record whose earlier forwards named
another NEXT cause JOIN, and so has TKDONE of a record with a higher count. That OP is looked at before JOIN is the model's choice (log
entry 9). -/
def Obligations.RowsAndTheirRecords : Prop :=
  ∀ (f : F3) (s : State) (c : Ctx) (l r : Nat) (y : Rec),
    let x := s.grp c
    let w := x.rd32 f.a l
    let n := x.rd32 f.b l
    let die := dieOf c.core
    let d := s.die die
    let bound : Prop := s.isLocal n die = true → d.isBound (n % 256) = true
    let tags := (fwdExperts f x l).map fun e => mkTag (if f.fn = 0x10 then bits (x.rd32 f.c l) 11 0 else tagAdapter y.tag) e n
    (s.group? c.core c.gid).isSome = true → x.heldRow w = .ok r → (s.die die).recs.find? r = some y →
    (y.join ≤ 1 → ∃ t, s.doneLane f c x false l = .ok t ∧ (t.die die).recs.find? r = none ∧ (t.grp c).tile[w]? = some (.gone r) ∧
      (t.grp c).idem = false ∧ t.mem = s.mem ∧ ∀ q, q ≠ r → (t.die die).recs.find? q = (s.die die).recs.find? q) ∧
    (1 < y.join → s.doneLane f c x false l = .error (tokenTrap c 4 w)) ∧
    (y.join ≤ 1 → (y.joinNext = none ∨ y.joinNext = some n) → bound →
      ∃ t z, s.fwdLane f c x l = .ok t ∧ (t.die die).recs.find? r = some z ∧ z.next = n ∧
        z.act = (if f.d = .none then y.act else x.rd64 f.d l) ∧ z.tag = tags.headD 0 ∧ z.join = tags.length ∧ z.joinNext = none ∧
        (z.place = 1 ∨ z.place = 4) ∧ (t.grp c).tile[w]? = some (.gone r) ∧ (t.grp c).idem = false ∧ t.mem = s.mem ∧
        (d.clonesOf (d.canon x.opid) = [] → s.merges = [] → s.packets = [] →
          (s.isLocal n die = false → ∃ p ∈ t.packets, p.srcRec = r ∧ p.srcDie = die ∧ p.pkg = bits n 31 22 ∧ p.die = bits n 21 20 ∧
            p.tags = tags ∧ p.image.next = n) ∧
          (s.isLocal n die = true → ∀ o, d.op? (d.canon (n % 256)) = some o →
            ((t.die die).col o.home).waiting = (d.col o.home).waiting ++ tags.map fun e => ⟨r, e, 0⟩))) ∧
    (y.joinNext ≠ none → y.joinNext ≠ some n → bound → s.fwdLane f c x l = .error (tokenTrap c 4 w)) ∧
    (1 < y.join → (y.joinNext = none ∨ y.joinNext = some n) → bound →
      ∃ t z, s.fwdLane f c x l = .ok t ∧ (t.die die).recs.find? r = some z ∧ z.join = y.join - 1 ∧
        z.joinNext = some n ∧ z.hdr = y.hdr ∧ z.act = y.act ∧ (t.grp c).tile[w]? = some (.gone r)) ∧
    (s.isLocal n die = true → d.isBound (n % 256) = false → s.fwdLane f c x l = .error (tokenTrap c 3 w))

/-- GATEK (R232, R239) with legal counts and ranges: D receives the k chosen experts and their weights, PD whether a logit is NaN, the inexact
flag is merged; a lane that serves a row has the predictions of its record checked (R251). That each failing lane traps with no lane's
effect is the model's choice (log entry 46), and so is the weight that is subnormal (log entry 64). -/
def Sys2Proof.GateResults : Prop :=
  ∀ f : F3,
    let k := f.fn.toNat
    Completes (.gatek f) [] [{ dstRun f.d (2 * k) false with noneOk := false }, src32 f.a, src32 f.b]
      (noLaneFails fun s c l => (s.gatekFail f c l).map fun t => (t.kind, t.cause)) fun s c =>
      let r (l : Nat) : Nat × Bool × Bool := gatekWords k (s.logits f c l)
      c.act.foldl (fun t l =>
        match (if l < (s.grp c).tileh then (s.grp c).tile[l]? else none) with
        | some (.held rid) =>
          t.onDie (dieOf c.core) fun d => d.confirmPredictions rid ((gatek k (s.logits f c l)).1.map fun e => e.1)
        | _ => t)
        ((s.advance c).onGrp c fun x =>
          let x := (c.act.foldl (fun x l => x.putRegs f.d l (r l).1 (2 * k)) x).wrPred c f.pd fun l => (r l).2.1
          if c.act.any fun l => (r l).2.2 then x.mergeFlags .inexact else x)

/-- The steps of token dispatch (R215, R216, R218, R219, R227 to R231, R255): where its condition holds an event has its effect, where it does
not nothing changes. The receive buffers of links and packets of other packages (log entry 29) and the reads of the adapter directory
(log entry 28) are the model's choice. -/
def Obligations.TokenEvents : Prop :=
  (∀ s : State, ∀ r x o c tags, (s.die s.turn.unit).recs.find? s.turn.item = some r →
    (s.die s.turn.unit).op? ((s.die s.turn.unit).canon (r.next % 256)) = some o → (s.die s.turn.unit).cols.find? o.home = some c →
    (s.die s.turn.unit).firstWaiting o.home = some s.turn.item →
    x = c.waiting.filter (fun w => w.rid == s.turn.item) → c.rows.length + x.length ≤ 512 →
    enterTags c.tags (x.map fun w => w.tag) = some tags →
    ∃ t, exec .recordEnterCol s = .next t ∧ t.mem = s.mem ∧
      ((t.die s.turn.unit).col o.home).rows = c.rows ++ x.map (fun w => { w with arrived := s.clk }) ∧
      ((t.die s.turn.unit).col o.home).tags = tags ∧
      ((t.die s.turn.unit).recs.find? s.turn.item).map (fun y => y.place) = some 2) ∧
  (∀ s : State, ∀ r o c, (s.die s.turn.unit).recs.find? s.turn.item = some r →
    (s.die s.turn.unit).op? ((s.die s.turn.unit).canon (r.next % 256)) = some o → (s.die s.turn.unit).cols.find? o.home = some c →
    ((s.die s.turn.unit).firstWaiting o.home ≠ some s.turn.item ∨
      512 < c.rows.length + (c.waiting.filter (fun w => w.rid == s.turn.item)).length ∨
      enterTags c.tags ((c.waiting.filter (fun w => w.rid == s.turn.item)).map fun w => w.tag) = none) →
    exec .recordEnterCol s = .next s) ∧
  (∀ s : State, (s.die s.turn.unit).timedOut s.clk s.turn.item = [] → exec .colFireTimeout s = .next s) ∧
  (∀ s : State, ∀ x, oldestOf ((s.die s.turn.unit).timedOut s.clk s.turn.item) = some x →
    exec .colFireTimeout s = .next ((s.onDie s.turn.unit fun d => d.fire s.clk s.turn.item x (heightFor x.rows.length)
      (min x.rows.length (heightFor x.rows.length))).noteDie s.turn.unit).clearSkip) ∧
  (∀ s : State, ∀ x, (s.die s.turn.unit).timedOut s.clk s.turn.item = [] →
    oldestOf (((s.die s.turn.unit).candidates s.turn.item).filter fun x =>
      decide (shapeOf x.op.thresholds ((s.die s.turn.unit).demand x.slot) ≤ x.rows.length)) = some x →
    let h := shapeOf x.op.thresholds ((s.die s.turn.unit).demand x.slot)
    exec .colFireFill s = .next ((s.onDie s.turn.unit fun d => d.fire s.clk s.turn.item x h h).noteDie s.turn.unit).clearSkip) ∧
  (∀ s : State, (s.die s.turn.unit).timedOut s.clk s.turn.item ≠ [] ∨
    (∀ x ∈ (s.die s.turn.unit).candidates s.turn.item,
      x.rows.length < shapeOf x.op.thresholds ((s.die s.turn.unit).demand x.slot)) → exec .colFireFill s = .next s) ∧
  (∀ s : State, ∀ p, 1 ≤ ((s.die s.turn.unit).deficits.find? (s.die s.turn.unit).lastTenant).getD 0 →
    s.placeable s.turn.unit (s.die s.turn.unit).lastTenant = some p →
    exec .dispatchPlace s = .next (s.placeFor s.turn.unit (s.die s.turn.unit).lastTenant
      (((s.die s.turn.unit).deficits.find? (s.die s.turn.unit).lastTenant).getD 0) p).clearSkip) ∧
  (∀ s : State, ∀ p, s.turn.flag = false → (s.die s.turn.unit).freeRecs ≠ 0 → s.packets.find? (fun p => p.id == s.turn.item) = some p →
    p.accepted = false → p.pkg = s.pkg → p.die = s.turn.unit →
    (∀ q ∈ s.packets, q.id < p.id → q.srcDie = p.srcDie → q.pkg = p.pkg → q.die = p.die → q.accepted = true) →
    let left := if p.srcDie < 4 then s.packets.map fun q => if q.id = p.id then { q with accepted := true } else q
      else s.packets.filter fun q => q.id != p.id
    exec .tokenPacketArrive s = .next (({ s with packets := left } : State).receive s.turn.unit p.image p.tags).clearSkip) ∧
  (∀ s : State, s.turn.flag = false → (s.die s.turn.unit).freeRecs = 0 → exec .tokenPacketArrive s = .next s.clearSkip) ∧
  (∀ s : State, s.turn.flag = true → exec .tokenPacketArrive s =
    .next (if s.portUp s.turn.item then
      ((s.woken.bufferPacket s.turn.unit s.turn.item s.turn.value).acceptPacket s.turn.unit s.nextId).clearSkip else s)) ∧
  (∀ s : State, ∀ p, s.packets.find? (fun p => p.id == s.turn.item) = some p → p.srcDie = s.turn.unit →
    (p.pkg = s.pkg → p.accepted = true) → (p.pkg ≠ s.pkg → (s.portFor 0).isSome = true) →
    ∃ t, exec .tokenPacketAck s = .next t ∧ (t.die s.turn.unit).recs.find? p.srcRec = none ∧ ∀ q ∈ t.packets, q.id ≠ p.id) ∧
  (∀ s : State, ∀ p, s.packets.find? (fun p => p.id == s.turn.item) = some p →
    (p.srcDie ≠ s.turn.unit ∨ p.pkg = s.pkg ∧ p.accepted = false ∨ p.pkg ≠ s.pkg ∧ s.portFor 0 = none) →
    exec .tokenPacketAck s = .next s) ∧
  (∀ s : State, (s.die s.turn.unit).merge.find? (fun h => h.rid == s.turn.item) = none → exec .mergeRelease s = .next s) ∧
  (∀ s : State, ∀ h, (s.die s.turn.unit).merge.find? (fun h => h.rid == s.turn.item) = some h →
    exec .mergeRelease s = .next (if s.mergeHolds s.turn.unit h then s else
      (((s.onDie s.turn.unit fun d => { d with merge := d.merge.filter fun g => g.rid != h.rid }).sendRec s.turn.unit h.rid h.tags
        (some h.fwd)).noteDie
        s.turn.unit).clearSkip)) ∧
  (∀ s : State, ∀ g, ((s.die s.turn.unit).col s.turn.item).tags.filterMap id = [g] →
    ((s.die s.turn.unit).prefetches g = false → exec .adapterPrefetchWarm s = .next s.clearSkip) ∧
    (∀ o v a n ofs, (s.die s.turn.unit).prefetches g = true →
      (s.die s.turn.unit).op? ((s.die s.turn.unit).canon (g % 256)) = some o → s.adapterEntry s.turn.unit o g = some (v, a, n, ofs) →
      exec .adapterPrefetchWarm s = .next (if adapterOk n ofs then (v.warm (adapterAgent s.turn.unit o)
        (if n = 0 then 0 else (a % 128 + n + 127) / 128) (a / 128 * 128)).clearSkip
        else (v.onDie s.turn.unit Die.adapterBad).clearSkip))) ∧
  (∀ s : State, let d := s.die s.turn.unit
    let ops := d.ops.filter fun o => o.2.st == 1 && o.2.region == s.turn.item
    let t := bits d.stallcfg.toNat 63 52 * 65536
    bit d.stallcfg.toNat 0 = true → t ≠ 0 → d.frozen.find? s.turn.item = none → ops ≠ [] → (∀ o ∈ ops, ∀ f, o.2.firedAt = some f → f + t ≤ s.clk) →
    ∀ since, d.busySince.find? s.turn.item = some since → since + t ≤ s.clk →
    let map := bits d.stallcfg.toNat 51 12 * 4096
    let v := s.occupancyMap s.turn.unit s.turn.item
    (∀ i, i < 32 → s.slotFull (map + 128 * i) 128 = false) →
    exec .stallWatchHang s = .next (((List.range 32).foldl (fun s i => s.unitWrite (map + 128 * i) 128 (v / 256 ^ (128 * i) % 256 ^ 128))
      (s.freezeRegion s.turn.unit s.turn.item)).draw.onDie s.turn.unit
      fun d => { d with hangs := d.hangs ++ [(s.turn.item, map)] }).clearSkip) ∧
  (∀ s : State, let d := s.die s.turn.unit
    (bit d.stallcfg.toNat 0 = false ∨ bits d.stallcfg.toNat 63 52 = 0 ∨ (d.frozen.find? s.turn.item).isSome = true ∨
      d.busySince.find? s.turn.item = none ∨ (∀ o ∈ d.ops, o.2.st = 1 → o.2.region ≠ s.turn.item) ∨
      ∃ o ∈ d.ops, o.2.st = 1 ∧ o.2.region = s.turn.item ∧ ∃ f, o.2.firedAt = some f ∧
        s.clk < f + bits d.stallcfg.toNat 63 52 * 65536) → exec .stallWatchHang s = .next s)
/-- BOARD, BOARD.SEL and BOARD.LEAVE (R248, R257): with an active lane the boarding is queued for 8 clk later with its destination and lanes; BOARD
without a tile traps with NOTILE, BOARD.SEL of another operator in U mode with a privilege fault; with no active lane nothing more happens. -/
def Sys2Proof.BoardingIsQueued : Prop :=
  ∀ f : FI,
    let queued (s : State) (c : Ctx) (leave : Bool) (op expert : Nat) : State :=
      (s.advance c).onGrp c fun x =>
        { x with boardings := x.boardings ++ [(⟨leave, op, expert, s.clk + 8, f.d, maskOf c.act⟩ : Boarding)] }
    let v (s : State) (c : Ctx) : Nat := ((s.grp c).rd32 f.a c.low + f.imm.toNat) % 2 ^ 32
    Completes (.board f) [] [dst32 f.d] (fun s c => c.act ≠ [] ∧ (s.grp c).tile ≠ [])
      (fun s c => queued s c false (s.grp c).opid (tagExpert (s.grp c).tileTag)) ∧
    CompletesWaiting (.board f) [] [dst32 f.d] (fun s c => c.act ≠ [] ∧ (s.grp c).tile = [])
      (fun s c => s.trapActive c (tokenTrap c 1 0)) ∧
    Completes (.boardSel f) [] [dst32 f.d, src32 f.a]
      (fun s c => c.act ≠ [] ∧ v s c < 2 ^ 16 ∧ (c.mode = .u → v s c % 256 = (s.grp c).opid))
      (fun s c => queued s c false (v s c % 256) (v s c / 256)) ∧
    CompletesWaiting (.boardSel f) [] [dst32 f.d, src32 f.a]
      (fun s c => c.act ≠ [] ∧ v s c < 2 ^ 16 ∧ c.mode = .u ∧ v s c % 256 ≠ (s.grp c).opid) (fun s c => s.trapActive c (privTrap c)) ∧
    Completes (.boardLeave f) [] [dst32 f.d] (fun _ c => c.act ≠ []) (fun s c => queued s c true 0 0) ∧
    Completes (.board f) [] [dst32 f.d] (fun _ c => c.act = []) (fun s c => s.advance c) ∧
    Completes (.boardSel f) [] [dst32 f.d, src32 f.a] (fun _ c => c.act = []) (fun s c => s.advance c) ∧
    Completes (.boardLeave f) [] [dst32 f.d] (fun _ c => c.act = []) (fun s c => s.advance c)

/-- XPRED, COLQ, CRSTAT and the matrix and copy status reads (R202, R203, R240, R251, R258, R259, R353): what they write, with nothing else changed
but, for XPRED, the record's predictions and, for XSTAT.ERR with active lanes, the tag's error word. That XPRED looks at the row before B
(log entry 9) and has no effect where a lane fails (log entry 46), and what COLQ reads of a clone's slot (log entry 80), is the model's
choice. -/
def Sys2Proof.StatusReads : Prop :=
  (∀ f : F3, Completes (.tstat f) [] [dst32 f.d] (fun _ _ => True) fun s c =>
    (s.advance c).onGrp c fun x => x.wr c f.d false fun _ => (s.core c.core).tstat (s.grp c).uid) ∧
  (∀ f : FI, Completes (.tshape f) [] [dst32 f.d, src32 f.a] (fun _ _ => True) fun s c =>
    let t := match s.opOf c.core (s.grp c) with | some o => o.thresholds | none => (8, 16, 32)
    (s.advance c).onGrp c fun x => x.wr c f.d false fun l => shapeOf t (min ((s.grp c).rd32 f.a l + f.imm.toNat) (2 ^ 32 - 1))) ∧
  (∀ f : F3,
    let k := (tagOf f.a).getD 0
    WritesReg (.xstatCnt f) [] [dst32 f.d, namedTag f.a] f.d false (fun x _ _ => (x.tag k).count) ∧
    WritesReg (.xstatErr f) [] [dst32 f.d, namedTag f.a] f.d false (fun x _ _ => (x.tag k).err) (fun c x =>
      if c.act.isEmpty then x else x.onTag k fun t => { t with err := 0 }) ∧
    Completes (.xstatEng f) [] [dst32 f.d] (fun _ _ => True) fun s c =>
      (s.advance c).onGrp c fun x => x.wr c f.d false fun _ =>
        min (s.die (dieOf c.core)).engine.length 1024 * 2 ^ 20 + min (s.laneEntries c.core) 1024 * 2 ^ 9 +
          min (s.die (dieOf c.core)).moving 64) ∧
  (∀ f : FI,
    let n (s : State) (c : Ctx) (l : Nat) : Nat := ((s.grp c).rd32 f.a l + f.imm.toNat) % 2 ^ 32
    let own (s : State) (c : Ctx) : Prop := c.mode = .u → ∀ l ∈ c.act, n s c l % 256 = (s.grp c).opid
    Completes (.colq f) [] [dst32 f.d, src32 f.a] own (fun s c =>
      (s.advance c).onGrp c fun x => x.wr c f.d false fun l => s.colq (dieOf c.core) f.fn.toNat (n s c l % 256)) ∧
    (f.fn = 5 → Completes (.crstat f) [] [dst32 f.d, src32 f.a] own fun s c =>
      (s.advance c).onGrp c fun x => x.wr c f.d false fun l =>
        (s.die (dieOf c.core)).passWord (n s c l % 256) (bits (n s c l) 15 8)) ∧
    (f.fn ≠ 5 → Completes (.crstat f) [] [dst32 f.d] (fun _ _ => True) fun s c =>
      (s.advance c).onGrp c fun x => x.wr c f.d false fun _ => s.crstat c f.fn.toNat)) ∧
  (∀ f : F3, LanesAct (.xpred f) [dst32 f.d, src32 f.a, src32 f.b, { srcRun f.c f.fn.toNat false with noneOk := false }]
    true (fun _ _ => false) fun c x s l =>
      let w := x.rd32 f.a l
      let b := x.rd32 f.b l
      match x.heldRow w with
      | .error e => .error (tokenTrap c e w)
      | .ok r =>
        if 256 ≤ b then .error (operandTrap c)
        else
          let k := f.fn.toNat
          let experts := (distinct ((List.range k).map fun i => x.rdRegs f.c l k / 2 ^ (32 * i) % 256)).filter fun e => e != 255
          let p := ((s.die (dieOf c.core)).cancelPredictions r).predictAll r b experts
          let t := s.onDie (dieOf c.core) fun _ => p.1
          .ok (if (match f.d with | .s _ => l == c.low | _ => true) then t.onGrp c fun x => x.put32 f.d l p.2 else t))

/-- RIDGE.PAUSE, RIDGE.RESUME and RIDGE.SYNC (R260), in S and H mode with an active lane: the Ridgeline stops and goes on; SYNC returns at once when it
is paused or has nothing to turn, and waits for the turn's end otherwise. When it finds nothing to turn (log entry 46) and what a PAUSE means for
one that waits (log entry 77) is the model's choice. -/
def Sys2Proof.RidgelineControl : Prop :=
  ∀ f : FI,
    let die (c : Ctx) : Nat := dieOf c.core
    let idle (s : State) (c : Ctx) : Prop :=
      (s.die (die c)).ridge.paused = true ∨ ((s.die (die c)).ridge.rotation = [] ∧ (s.die (die c)).rotationNow = [])
    Completes (.ridgePause f) [] [dst32 f.d] (fun _ c => c.mode ≠ .u ∧ c.act ≠ []) (fun s c =>
      ((s.onRidge (die c) fun g => { g with paused := true }).advance c).onGrp c fun x => x.wr c f.d false fun _ => 0) ∧
    Completes (.ridgeResume f) [] [dst32 f.d]
      (fun s c => c.mode ≠ .u ∧ c.act ≠ [] ∧ s.mayRelease c.core c.gid 3 [c.low] = true) (fun s c =>
      (((s.tickLane c c.low).onRidge (die c) fun g => { g with paused := false }).advance c).onGrp c fun x => x.wr c f.d false fun _ => 0) ∧
    Completes (.ridgeSync f) [] [dst32 f.d] (fun s c => c.mode ≠ .u ∧ c.act ≠ [] ∧ idle s c) (fun s c =>
      (s.advance c).onGrp c fun x => x.wr c f.d false fun _ => (s.die (die c)).ridge.turns % 2 ^ 32) ∧
    CompletesWaiting (.ridgeSync f) [] [dst32 f.d] (fun s c => c.mode ≠ .u ∧ c.act ≠ [] ∧ ¬idle s c) fun s c =>
      ({ s with nextId := s.nextId + 1 }.onRidge (die c) fun g => { g with syncs := g.syncs ++
        [(⟨s.nextId, c.core, c.gid, f.d, maskOf c.act⟩ : SyncWait)] }).onGrp c fun x =>
        x.onLanes c.set fun _ k => { k with wait := .reply s.nextId }

/-- A boarding takes effect (R248, R249, R257): BOARD of a group that rides gives 3 and of an entry that no schedule holds 2; otherwise the group
rides it from its first place on, and D receives 0 where its pass still opens in the current turn, or needs no turn, and 1 where it opens in a
later one. BOARD.LEAVE ends a ride with 0 and gives 1 without one. The order of a boarding and an opening in one clk is the model's choice
(log entry 46). -/
def Sys2Proof.BoardingsTakeEffect : Prop :=
  ∀ (s : State) (x : Group) (b : Boarding) (rest : List Boarding),
    let u := s.turn.unit
    let d := s.die (dieOf u)
    s.group? u s.turn.item = some x → x.boardings = b :: rest → b.due ≤ s.clk → (∀ q ∈ rest, s.clk < q.due) →
    (s.core u).saves x.slot = false →
    let gives (ride : Option Ride) (code : Nat) : Prop := ∃ t, exec .boardTakeEffect s = .next t ∧
      (t.group u s.turn.item).ride = ride ∧ (t.group u s.turn.item).boardings = rest ∧ t.mem = s.mem ∧
      ∀ n : Fin 640, ∀ l ∈ lanesOf b.lanes, b.dest = .v n → n.val < x.winsize →
        sget (t.group u s.turn.item).v (32 * n.val + l) = BitVec.ofNat 32 code
    (b.leave = false → x.ride.isSome = true → gives x.ride 3) ∧
    (b.leave = false → x.ride = none → d.passEntry b.op b.expert = none → gives none 2) ∧
    (∀ e, b.leave = false → x.ride = none → d.passEntry b.op b.expert = some e →
      gives (some ⟨b.op, b.expert, d.bindOf b.op, e.pin, none, 0, e.places⟩) (if e.pin || d.opensThisTurn b.op b.expert e then 0 else 1)) ∧
    (b.leave = true → x.ride.isSome = true → gives none 0) ∧
    (b.leave = true → x.ride = none → gives none 1)

/-- PASS_OPEN (R243 to R245, R248): an opening is one more open pass, at its first block, whose riders are the groups that wait for it; their
rides name it. A PIN pass that a group waits for opens first. Otherwise the next entry of the rotation does, and where the rotation has been
gone through a new turn begins with the rotation of the schedules as they are, or, where they are empty, the rotation is empty. That
RIDGE.SYNC is answered then is R260. When a rotation counts as empty is the model's choice (log entry 46). -/
def Sys2Proof.PassesOpen : Prop :=
  ∀ s : State,
    let die := s.turn.unit
    let r := (s.die die).ridge
    let after (t : State) : Ridge := (t.die die).ridge
    let opens (t : State) (op bind : Nat) (e : Entry) : Prop :=
      (∃ p, (after t).passes = r.passes ++ [p] ∧ p.id = r.nextPass ∧ p.op = op ∧ p.expert = e.expert ∧ p.entry = e ∧ p.next = 0 ∧
        p.staged = [] ∧ p.pin = e.pin ∧ p.riders = s.nextRiders die op e.expert bind) ∧
      (∀ core gid x q, dieOf core = die → s.group? core gid = some x → x.ride = some q → q.op = op → q.expert = e.expert → q.bind = bind →
        q.opening = none → (t.group core gid).ride = some { q with opening := some r.nextPass }) ∧ t.mem = s.mem
    let free (e : RotEntry) : Prop := r.paused = false ∧ r.passes.length < 64 ∧ e.entry.dem = false ∧
      ∀ p ∈ r.passes, p.op = e.op → p.expert = e.entry.expert → p.bind = e.bind → p.pin = true
    let turnEnds : Prop := s.pinToOpen die = none ∧ r.rotation.length ≤ r.cursor ∧ ∀ t, r.first = some t → t < s.clk
    (∀ op o e, r.paused = false → r.passes.length < 64 → s.pinToOpen die = some (op, o, e) →
      ∃ t, exec .passOpen s = .next t ∧ opens t op o.bind e ∧ (after t).cursor = r.cursor ∧ (after t).turns = r.turns) ∧
    (∀ e, s.pinToOpen die = none → r.rotation[r.cursor]? = some e → free e →
      ∃ t, exec .passOpen s = .next t ∧ opens t e.op e.bind e.entry ∧ (after t).cursor = r.cursor + 1 ∧ (after t).turns = r.turns) ∧
    (∀ e rest, turnEnds → (s.die die).rotationNow = e :: rest → free e →
      ∃ t, exec .passOpen s = .next t ∧ opens t e.op e.bind e.entry ∧ (after t).cursor = 1 ∧ (after t).turns = r.turns + 1 ∧
        (after t).rotation = e :: rest ∧ (after t).syncs = []) ∧
    (turnEnds → (s.die die).rotationNow = [] →
      ∃ t, exec .passOpen s = .next t ∧ (after t).rotation = [] ∧ (after t).syncs = [] ∧ (after t).passes = r.passes) ∧
    (s.pinToOpen die = none → r.paused = true → r.cursor < r.rotation.length → exec .passOpen s = .next s)

/-- The Ridgeline's other steps and the end of a group (R77, R178, R223, R243 to R249, R254, R257): each where its conditions hold. How the time that a
staged block is held counts and how block reads pass from pass to pass (log entry 46), and whom an ejection takes (log entry 77), is the
model's choice. -/
def Sys2Proof.RidgelineSteps : Prop :=
  (∀ s : State, ∀ b rest, (s.group s.turn.unit s.turn.item).boardings = b :: rest → b.due ≤ s.clk → (∀ q ∈ rest, s.clk < q.due) →
    let r := (s.onGroup s.turn.unit s.turn.item fun x => { x with boardings := rest }).boardEffect s.turn.unit s.turn.item b
    exec .boardTakeEffect s = .next (r.1.onGroup s.turn.unit s.turn.item fun x =>
      (lanesOf b.lanes).foldl (fun x l => x.put32 b.dest l r.2) x).clearSkip) ∧
  (∀ s : State, let r := (s.die s.turn.unit).ridge
    ∀ t, s.pinToOpen s.turn.unit = none → r.cursor < r.rotation.length → s.openNext s.turn.unit = some t →
      exec .passOpen s = .next t.clearSkip) ∧
  (∀ s : State, ∀ p o, let r := (s.die s.turn.unit).ridge
    let n := blockSize p.entry.fmt
    let used := if r.window = s.clk / 4096 then r.used else 0
    s.nextReader s.turn.unit = some (p, .ok o) → o.bad = 0 →
    (p ∈ r.passes ∧ r.paused = false ∧ p.fault = none ∧ p.next < p.entry.places ∧ p.staged.length < 2 ∧
      (p.pin = true ∨ used + n ≤ s.ridgeBudget s.turn.unit)) ∧
    let b : Staged := ⟨p.next, putBytes [] 0 n o.value, [], distinct (p.riders.map fun q => q.1), s.clk⟩
    exec .blockReadIssue s = .next (o.s.onRidge s.turn.unit fun r =>
      ({ r.onStat p.op p.expert p.bind (fun t => { t with read := min (t.read + 1) (2 ^ 24 - 1) }) with
         window := s.clk / 4096, used := (if r.window = s.clk / 4096 then r.used else 0) + (if p.pin then 0 else n),
         readFrom := p.id + 1 }.onPass p.id fun p =>
        { p with next := p.next + 1, staged := if b.cores.isEmpty then p.staged else p.staged ++ [b] }).closePass p.id).clearSkip) ∧
  (∀ s : State, ∀ p, (s.die s.turn.unit).ridge.passes.find? (fun p => p.id == s.turn.item) = some p →
    let d := s.deliverAll p [] p.staged
    exec .blockDeliver s = .next (d.1.onRidge s.turn.unit fun r =>
      (r.onPass p.id fun p => { p with staged := d.2 }).closePass p.id).clearSkip) ∧
  (∀ s : State, ∀ p, let r := (s.die s.turn.unit).ridge
    let core := s.turn.sub
    r.passes.find? (fun p => p.id == s.turn.item) = some p → r.hold ≠ 0 → r.paused = false → (s.core core).landing ≠ [] →
    (∃ b ∈ p.staged, core ∈ b.cores ∧ b.since + r.hold < s.clk) →
    let gids := p.riders.filterMap fun q => if q.1 = core then (s.core core).gidOf q.2 else none
    exec .rideEject s = .next ((gids.foldl (fun s g =>
        s.leavePass core g ⟨p.op, p.expert, p.bind, p.pin, some p.id, 0, p.entry.places⟩ true) s).onRidge s.turn.unit fun r => (r.onPass p.id fun p =>
      { p with riders := p.riders.filter (fun q => q.1 != core),
               staged := (p.staged.map fun b => { b with cores := b.cores.filter fun c => c != core }).filter fun b => !b.cores.isEmpty }).closePass
        p.id).clearSkip) ∧
  (∀ s : State, ∀ t, let x := s.group s.turn.unit s.turn.item
    let r := (s.die (dieOf s.turn.unit)).ridge
    x.ride.isSome = true → r.hold ≠ 0 → r.paused = false → x.frozenSlot = some t → x.frozenRegion = none → t + r.hold < s.clk →
    exec .frozenRideEject s = .next (s.leaveRide s.turn.unit s.turn.item true).clearSkip) ∧
  (∀ s : State, ∀ x, s.group? s.turn.unit s.turn.item = some x → s.mayRetire s.turn.unit x = true → x.gid = s.turn.item →
    ∃ t, exec .groupRetire s = .next t ∧ t.group? s.turn.unit s.turn.item = none ∧ t.mem = s.mem) ∧
  (∀ s : State, ∀ x, s.group? s.turn.unit s.turn.item = some x → s.mayRetire s.turn.unit x = false → exec .groupRetire s = .next s)
/-- States that no operation tells apart: the same groups, cores and everything else. -/
def Sys2Proof.SameState (a b : State) : Prop :=
  (∀ core g, a.group? core g = b.group? core g) ∧
  (∀ core, ({ a.core core with groups := [] } : Core) = { b.core core with groups := [] }) ∧
  ({ a with cores := [] } : State) = { b with cores := [] }

/-- An instruction of the decode services in which active lanes act in ascending order (R389, R390), none of them in a transaction, each on the
operands of the group as it issues, with D or, where D is an S register, only the lowest of them with it (R62): where none fails the set goes
on, the group no longer idempotent; where lanes trap, those take their traps and stay, the others have their effect. -/
def Sys2Proof.ServesLanes (i : Instr) (d : Operand) (uses : List Use) (allowed : Ctx → Prop)
    (lane : Ctx → Group → (Nat → Operand) → State → Nat → Except LaneFail State) : Prop :=
  ∀ s c, CanIssue s c [] uses → allowed c →
    let b := s.begun c uses
    (∀ l ∈ c.act, (b.grp c).inTx l = false) →
    let dest (l : Nat) : Operand := match d with
      | .s _ => if (c.act.find? fun i => !((b.grp c).lane i).follows) = some l then d else .none
      | _ => d
    let r := (b.advance c).serveFold (lane c (b.grp c) dest) c.act
    let t := if c.act = [] then r.1 else r.1.notIdem c
    (r.2 = [] → ∃ u, SameState u t ∧ exec i s = .next (u.finish c)) ∧
    (∀ traps : List (Nat × TrapInfo), r.2 = traps.map (fun e => (e.1, LaneFail.trap e.2)) →
      ∃ u, SameState u ((t.retry c (traps.map fun e => e.1)).trapLanes c traps) ∧ exec i s = .next (u.finish c))

/-- PENAL, CNTUPD, SEQADM, SEQADM.REL, SEQADM.INFO and SEQSTEAL act lane by lane (R389, R393, R395 to R398); RAND and RAND.U01 write four words of the
counter-based generator in each active lane and change nothing else (R399). The model's choices: the order of a lane's checks and that each
failing lane traps alone with its own cause (log 9); the codes of a misaligned block and the traps of misaligned words of penalties and counts,
ALIGN for every active lane of a CNTUPD with one such word, and a lane's wait for its own earlier accesses (log 51). -/
def Obligations.DecodeServiceInstructions : Prop :=
  ∀ f : F3,
    let system (c : Ctx) : Prop := c.mode ≠ .u
    let put (s : State) (c : Ctx) (dest : Operand) (l v : Nat) : State := s.onGrp c fun y => y.put32 dest l v
    ServesLanes (.penal f) f.d [dst32 f.d, src32 f.a, src64 f.b] (fun _ => True) (fun c x dest s l => s.penalLane f c x (dest l) l) ∧
    ServesLanes (.cntupd f) f.d [dst32 f.d, src32 f.a, src64 f.b] (fun _ => True) (fun c x dest s l =>
      s.cntLane f c x ((c.act.filter fun m => !x.inTx m).any fun m =>
        match s.cntWord f c x m with | .ok (_, va) => va % 4 != 0 | .error _ => false) (dest l) l) ∧
    ServesLanes (.seqadm f) f.d [dst32 f.d, src64 f.a] system (fun c x dest s l => s.admitLane f c x (dest l) l) ∧
    ServesLanes (.seqadmRel f) f.d [dst32 f.d, src32 f.a] system (fun c x dest s l =>
      let n := x.rd32 f.a l
      let d := s.die (dieOf c.core)
      if 2 ^ 16 ≤ n then .error (.trap (decodeTrap c 3))
      else if (d.seq? n).elim false (fun q => q.st == 2) && (d.recsOf n).isEmpty then
        .ok (put (s.onDie (dieOf c.core) fun d => { d with seqs := d.seqs.erase n }) c (dest l) l 0)
      else .ok (put s c (dest l) l 1)) ∧
    ServesLanes (.seqadmInfo f) f.d [dst64 f.d, src32 f.a] system (fun c x dest s l =>
      let a := x.rd32 f.a l
      let d := s.die (dieOf c.core)
      if bits a 30 16 ≠ 0 then .error (.trap (decodeTrap c 3))
      else .ok (s.onGrp c fun y => y.put64 (dest l) l (if bit a 31 then 65536 - d.seqs.length else d.seqInfo (a % 2 ^ 16)))) ∧
    ServesLanes (.seqsteal f) f.d [dst32 f.d, src32 f.a] system (fun c x dest s l =>
      let a := x.rd32 f.a l
      if 2 ^ 18 ≤ a then .error (.trap (decodeTrap c 3))
      else match s.steal c l (a / 2 ^ 16) (a % 2 ^ 16) with
        | .error e => .error e
        | .ok (t, v) => .ok (put t c (dest l) l v)) ∧
    (let four := [{ dstRun f.d 4 false with noneOk := false }, src64 f.a, src64 f.b, src64 f.c]
     let draws (i : Instr) (out : Nat → Nat) : Prop := Completes i [] four (fun _ _ => True) fun s c =>
      (s.advance c).onGrp c fun x => c.act.foldl (fun y l => y.putRegs f.d l (packElems 32 (((s.grp c).randWords f l).map out)) 4) x
     draws (.rand f) id ∧ draws (.randU01 f) fun w => (fp32.convert .rne (.fin false (w / 256) (-24))).1)

/-- Admission of a sequence (R391 to R393): the block is read first, as an acquire; a well-formed one makes the lowest free slot LIVE with its
fields and D gives the slot's number; with no free slot D says FULL, with a block that breaks the rules or a misaligned one it says BAD. The model's choices: FULL before a bad block,
and BAD for a misaligned one (log 51). -/
def Obligations.AdmissionMakesALiveSlot : Prop :=
  ∀ (f : F3) (s : State) (c : Ctx) (x : Group) (dest : Operand) (l : Nat),
    let die := dieOf c.core
    let a := x.rd64 f.a l % 2 ^ 53
    let put (s : State) (v : Nat) : State := s.onGrp c fun y => y.put32 dest l v
    (a % 8 ≠ 0 → s.admitLane f c x dest l = .ok (put s (2 ^ 31 + if (s.die die).freeSeq.isSome then 2 else 1))) ∧
    ∀ o, a % 8 = 0 → s.ownWaits c l a 32 = false →
      s.agentGetSure { s.agentFor c.core c.gid l c.slot c.mode with orders := true } ((s.grp c).lane l).c a 32 = .ok o →
      let read := o.s.onLane c.core c.gid l fun k =>
        { o.w.elim k k.acquire with c := stampMax (o.w.elim k k.acquire).c o.c, p := o.w.elim (o.w.elim k k.acquire).p (stampMax (o.w.elim k k.acquire).p) }
      ((s.die die).freeSeq = none → s.admitLane f c x dest l = .ok (put read (2 ^ 31 + 1))) ∧
      ∀ n, (s.die die).freeSeq = some n →
        (admissionOk o.value = false → s.admitLane f c x dest l = .ok (put read (2 ^ 31 + 2))) ∧
        (admissionOk o.value = true →
          ∃ t q, s.admitLane f c x dest l = .ok (put t n) ∧ (t.die die).seqs.find? n = some q ∧ q.st = 1 ∧ q.samp = descField o.value 0 8 ∧
            q.pen = descField o.value 8 8 ∧ q.done = descField o.value 0x10 8 ∧ q.tenant = descField o.value 0x18 1 ∧
            q.auto = descField o.value 0x1A 2 ∧ ∀ m, m ≠ n → (t.die die).seqs.find? m = (o.s.die die).seqs.find? m)

/-- Scanner instructions (R389, R404 to R406), with active lanes, none in a transaction, that name LIVE or other held slots and legal ranges, the unit on and
with room: one request a lane in ascending order stands last in the unit's queue, and the whole set waits for its replies. -/
def Sys2Proof.QueuesScan (i : Instr) (f : F3) (uses : List Use) (kindOf : State → Ctx → Nat → Except TrapInfo ScanKind) : Prop :=
  ∀ s c, CanIssue s c [] uses →
    let b := s.begun c uses
    let d := b.die (dieOf c.core)
    c.act ≠ [] → (∀ l ∈ c.act, (b.grp c).inTx l = false ∧ (b.grp c).rd32 f.a l < 2 ^ 16 ∧ (d.seq? ((b.grp c).rd32 f.a l)).isSome = true) →
    d.scanOn = true → d.scanq.length + c.act.length ≤ 1024 →
    ∀ k : Nat → ScanKind, (∀ l ∈ c.act, kindOf b c l = .ok (k l)) →
    ∃ t reqs, exec i s = .next t ∧ t.mem = s.mem ∧ (t.die (dieOf c.core)).scanq = d.scanq ++ reqs ∧
      reqs.map (fun r => r.lane) = c.act ∧ (t.grp c).idem = false ∧
      (∀ r ∈ reqs, r.core = c.core ∧ r.gid = c.gid ∧ r.seq = (b.grp c).rd32 f.a r.lane ∧ r.kind = k r.lane ∧
        ∀ l ∈ c.set, ((t.grp c).lane l).wait = .reply r.batch) ∧
      ∀ l ∈ c.set, ((t.grp c).lane l).pc = c.pc

/-- SCANB, SCANB.FLUSH, SCANB.RESET and SCANR queue requests (R404 to R406), and SCAN_REQUEST_PERFORM carries out the oldest one on the slot's
scanner state in memory: that state follows, D receives the value, a read's bytes go to the scratchpad; while requests of its instruction
remain, its lanes wait on. The model's choices: how the checks of a range and a length go lane by lane, what a bad table does (log 34), the layout of
a slot's state in memory (log 19), and that uncorrectable tables read free values (log 35). -/
def Obligations.ScannerRequests : Prop :=
  (∀ f : F3,
    let range (s : State) (c : Ctx) (l n : Nat) (k : ScanKind) : Except TrapInfo ScanKind :=
      match (if n = 0 then none else (s.core c.core).spadFail c.slot ((s.grp c).rd32 f.b l) n) with
      | some e => .error ⟨10, e, c.pc, (s.grp c).rd32 f.b l, 0, none⟩
      | none => .ok k
    let at_ (s : State) (c : Ctx) (l : Nat) : Nat := (s.core c.core).partBase c.slot + (s.grp c).rd32 f.b l
    QueuesScan (.scanb f) f [dst32 f.d, src32 f.a, src32 f.b, src32 f.c] (fun s c l =>
      let n := (s.grp c).rd32 f.c l
      if 64 < n then .error (decodeTrap c 3)
      else range s c l n (.feed ((List.range n).map fun i => (s.core c.core).spadRead (at_ s c l + i) 1))) ∧
    QueuesScan (.scanbFlush f) f [dst32 f.d, src32 f.a] (fun _ _ _ => .ok .flush) ∧
    QueuesScan (.scanbReset f) f [dst32 f.d, src32 f.a, src32 f.c]
      (fun s c l => .ok (.reset ((s.grp c).rd32 f.c l % 2 ^ 16))) ∧
    QueuesScan (.scanr f) f [dst32 f.d, src32 f.a, src32 f.b, src32 f.c] fun s c l =>
      let n := min ((s.grp c).rd32 f.c l) 512
      range s c l n (.read n (at_ s c l))) ∧
  (∀ s : State, ∀ r rest q, (s.die s.turn.unit).scanq = r :: rest → (s.die s.turn.unit).scanOn = true →
    (s.die s.turn.unit).seq? r.seq = some q → rest.any (fun q => q.batch == r.batch) = true →
    let base := bits (s.die s.turn.unit).scancfg.toNat 51 27 * 2 ^ 27
    let t := s.onDie s.turn.unit fun d => { d with scanq := rest }
    let p := t.scanDo base (t.scanner s.turn.unit r.seq q.auto) r.kind
    let u := (t.onDie s.turn.unit fun d => { d with seqs := d.seqs.put r.seq { q with auto := p.1.auto } }).putScanner s.turn.unit r.seq p.1
    exec .scanRequestPerform s = .next ((match r.kind with
      | .read _ a => u.onCore r.core fun k => k.spadWrite a p.2.2.length (packElems 8 p.2.2)
      | _ => u).onGroup r.core r.gid fun x => x.put32 r.dest r.lane p.2.1).clearSkip)

/-- KV instructions (R379 to R385), with active lanes outside transactions whose address words are legal, no earlier access of which holds their
relaxed reads back (R300), and the queue with room: one request a lane in ascending order stands last in the engine's or gather port's queue, with the lane's word and clocks; the whole set waits at the instruction; memory stays. -/
def Sys2Proof.QueuesKv (i : Instr) (uses : List Use) (word : Operand) (kind : KvKind) (dest : Operand) (ok : State → Ctx → Prop)
    (what : State → Ctx → KvReq → Prop) : Prop :=
  ∀ s c, CanIssue s c [] uses →
    let b := s.begun c uses
    let x := b.grp c
    let die := dieOf c.core
    let port := match kind with | .gath _ => true | _ => false
    c.act ≠ [] → (∀ l ∈ c.act, b.laneMayIssue c false 0 l = true) →
    (∀ l ∈ c.act, x.inTx l = false ∧ x.rd64 word l < 2 ^ 56 ∧ (c.mode = .u → kvSeq (x.rd64 word l) < 0x10000)) →
    (port = false → (b.die die).kvCount + c.act.length ≤ 4096) → ok b c →
    ∃ t reqs, exec i s = .next t ∧ t.mem = s.mem ∧
      (t.die die).gathers = (b.die die).gathers ++ (if port then reqs else []) ∧
      (t.die die).kvq = (b.die die).kvq ++ (if port then [] else reqs) ∧
      reqs.map (fun r => r.lane) = c.act ∧
      (∀ r ∈ reqs, r.core = c.core ∧ r.gid = c.gid ∧ r.mode = c.mode ∧ r.kind = kind ∧ r.word = x.rd64 word r.lane ∧
        r.clock = (x.lane r.lane).c ∧ r.fault = none ∧
        r.dest = (match dest with | .s _ => if r.lane = c.low then dest else .none | _ => dest) ∧ what b c r) ∧
      ∀ l ∈ c.set, ((t.grp c).lane l).pc = ((s.grp c).lane l).pc ∧ ∃ n, ((t.grp c).lane l).wait = .reply n

/-- KVMAP, KVMAP.INFO, KVAPP, KVFORK, KVFREE, KVFREE.ALL, KSTORE, CGATH and CGATH.TRAP are queued (R380 to R385). The model's choices: a lane's own
failing check gives its trap (log 9), and the order of requests that come in one clk (log 72). -/
def Obligations.KvRequestsAreQueued : Prop :=
  (∀ f : F3,
    let any_ (_ : State) (_ : Ctx) : Prop := True
    let pd (_ : State) (_ : Ctx) (r : KvReq) : Prop := r.pd = f.pd
    let whole (s : State) (c : Ctx) : Prop := ∀ l ∈ c.act, kvPos ((s.grp c).rd64 f.a l) = 0
    QueuesKv (.kvmap f) [dst64 f.d, src64 f.a] f.a .map f.d any_ pd ∧
    QueuesKv (.kvmapInfo f) [dst64 f.d, src64 f.a] f.a .info f.d any_ pd ∧
    QueuesKv (.kvapp f) [dst64 f.d, src64 f.a] f.a .app f.d any_ pd ∧
    QueuesKv (.kvfork f) [dst32 f.d, src64 f.a, src32 f.b] f.a .fork f.d
      (fun s c => ∀ l ∈ c.act, (s.grp c).rd32 f.b l < 2 ^ 20) (fun s c r => r.b = (s.grp c).rd32 f.b r.lane) ∧
    QueuesKv (.kvfree f) [dst32 f.d, src64 f.a] f.a .free f.d whole (fun _ _ _ => True) ∧
    QueuesKv (.kvfreeAll f) [dst32 f.d, src64 f.a] f.a .freeAll f.d whole fun _ _ _ => True) ∧
  (∀ f : FM,
    let row (o : Operand) (s : State) (c : Ctx) (l : Nat) : Nat := bits ((s.grp c).rd32 o l) 18 0
    QueuesKv (.kstore f) [dst64 f.d, src64 f.a, src32 f.b, tagUse f.c] f.a .kstore f.d
      (fun s c => s.mayRelease c.core c.gid f.scope.toNat c.act = true ∧ ∀ l ∈ c.act, s.rowFail c (row f.b s c l) 4 1 = none)
      (fun s c r => r.b = row f.b s c r.lane ∧ r.tag = tagOf f.c ∧ r.sem = f.sem.toNat ∧ r.scope = f.scope.toNat) ∧
    (let gathers (i : Instr) (trap : Bool) : Prop :=
      QueuesKv i [dst64 f.d, src64 f.a, src32 f.b, src32 f.c] f.a (.gath trap) f.d
        (fun s c => ∀ l ∈ c.act, s.rowFail c (row f.b s c l) 4 1 = none ∧
          s.rowFail c (row f.c s c l) 8 (8 * (bits f.ofs.toNat 11 0 + 1)) = none)
        (fun s c r => r.b = row f.b s c r.lane ∧ r.c = row f.c s c r.lane ∧ r.ofs = f.ofs.toNat)
     gathers (.cgath f) false ∧ gathers (.cgathTrap f) true))

/-- What the KV engine and the gather port do with a request that no earlier one holds back (R363 to R367, R369, R371, R375, R385): its effect and its reply in one
step; a request that another still keeps busy stays; a page that cannot be translated leaves it waiting with a record,
uncorrectable data end it undone with UNCORR pending; a copy, a publication, a port's
reply each in its own step. The model's choices: the engine ignores U (log 36), uncorrectable data (log 39), what waits for a copy or a publication
(log 48), and where a publication writes COUNT (log 49). -/
def Sys2Proof.KvSteps : Prop :=
  (∀ s : State, ∀ r, let q := (s.die s.turn.unit).kvq
    q.find? (fun r => r.id == s.turn.item) = some r → r.fault = none → r.since < s.clk → r.waitsFor q = false →
    q.any (fun a => a.before r && !a.waitsFor q && s.kvReady a) = false →
    let run := s.kvRun r r.clock (kvBody (s.kvAgent r) r)
    (run = .error .busy → exec .kvRequestPerform s = .next s) ∧
    (∀ d pd e, run = .ok (.done d pd, e) →
      exec .kvRequestPerform s = .next ((((e.s.dropKv r).kvReply r d pd e false).kvEnd r).clearSkip)) ∧
    (∀ pa, run = .error (.uncorr pa) → exec .kvRequestPerform s = .next (((s.dropKv r).kvUncorr r pa).kvEnd r).clearSkip) ∧
    (∀ f va, run = .error (.xlate f va) → exec .kvRequestPerform s = .next ((s.kvFault r va f).onDie s.turn.unit fun d =>
      { d with kvq := d.kvq.map fun a => if a.id = r.id then { a with fault := some va } else a }).clearSkip) ∧
    (∀ kind cause tval e, run = .ok (.trap kind cause tval, e) →
      exec .kvRequestPerform s = .next ((((s.dropKv r).kvTrap r kind cause tval).kvEnd r).clearSkip))) ∧
  (∀ s : State, ∀ w e, (s.die s.turn.unit).cows.find? (fun w => w.id == s.turn.item) = some w →
    s.kvRun w.req w.clock (cowBody (s.kvAgent w.req) w) = .ok ((), e) →
    exec .kvCowCopyRead s = .next ((((e.s.onDie s.turn.unit fun d => { d with cows := d.cows.filter fun o => o.id != w.id }).kvReply w.req w.block true
      { e with headW := e.c } true).kvEnd w.req).clearSkip)) ∧
  (∀ s : State, ∀ p, (s.die s.turn.unit).pubs.find? (fun p => p.id == s.turn.item) = some p →
    (∀ o ∈ (s.die s.turn.unit).pubs, o.space = p.space → o.seq = p.seq → o.bucket = p.bucket → p.index ≤ o.index) →
    let g := { s.kvAgent p.req with orders := true }
    (∀ a ∈ p.headAt, s.agentHeld g p.headVa a 4 = false) →
    let st := s.stampAll g p.stamp p.headVa p.headAt
    let t := (p.headAt.foldl (fun t a => t.agentPutAt g st a 4 (p.index + 1)) s).agentLog s g p.headVa (p.headAt.headD 0) 4 st
    exec .kstorePublish s = .next (((t.kstoreEnd p st).onDie
      s.turn.unit fun d => { d with pubs := d.pubs.filter fun o => o.id != p.id }).clearSkip)) ∧
  (∀ s : State, ∀ r d e, (s.die s.turn.unit).gathers.find?
      (fun r => r.id == s.turn.item && r.fault.isNone && !r.waitsFor (s.die s.turn.unit).gathers) = some r →
    s.kvRun r r.clock (kvBody (s.kvAgent r) r) = .ok (.done d false, e) →
    exec .gatherPortReply s = .next ((((e.s.dropKv r).kvReply r d false e (r.sem == 2)).kvEnd r).clearSkip))

/-- Work of the engine that succeeds: its answer and what it leaves. -/
def Sys2Proof.Gives {α : Type} (m : Eng α) (e : EngSt) (a : α) (t : EngSt) : Prop := m e = .ok (a, t)

/-- Pieces of work done one after another. -/
def Sys2Proof.Runs : List (Eng Unit) → EngSt → EngSt → Prop
  | [], e, t => t = e
  | m :: ms, e, t => ∃ u, Gives m e () u ∧ Runs ms u t

/-- No copy on write of a sequence is under way in a space, and no publication. -/
def Sys2Proof.Quiet (sp : Space) (q : Nat) (e : EngSt) : Prop :=
  (∀ w ∈ (e.s.die sp.g.die).cows, w.space = sp.num → w.req.word % 2 ^ 20 ≠ q) ∧
  ∀ p ∈ (e.s.die sp.g.die).pubs, p.space = sp.num → p.seq ≠ q

/-- Blocks and the table (R358, R359): a probe answers only an entry of its key; a block comes from the first free of the eight places, else from
the cursor on and then over the overflow list, and is written with its key, REF 1 and VALID, its free bit set and one fewer free; freed, its
entry is zero and one more is free. -/
def Sys2Proof.KvTable : Prop := ∀ (sp : Space) (q l : Nat) (e : EngSt),
  (∀ j t, Gives (sp.probe q l) e (some j) t → ∃ u x v, Gives (sp.entry j) u x v ∧ x.seq = q ∧ x.lblk = l) ∧
  (∀ n t, Gives (sp.hget 0x64) e n t →
    (n = 0 → Gives (sp.allocate q l) e none t) ∧
    (n ≠ 0 → ∀ u,
      let place (i : Nat) : Nat := ((q * 0x9E3779B1 % 2 ^ 32) ^^^ (l * 0x85EBCA77 % 2 ^ 32)) + i
      let taken (j : Nat) (far : Bool) : List (Eng Unit) :=
        [eput sp.g (sp.table + 8 * j) 8 (KvEntry.word ⟨q, l, 1, false, far, true⟩), putMapBit sp.g sp.fmap j true]
      let near := (List.range 8).map fun i => place i % sp.nblk
      (∀ j v k w x, Gives (firstFree sp.g sp.fmap near) t (some j) u → Runs (taken j false) u v → Gives (sp.hget 0x64) v k w →
        Runs [sp.hput 0x64 (k - 1)] w x → Gives (sp.allocate q l) e (some j) x) ∧
      (Gives (firstFree sp.g sp.fmap near) t none u →
        let all := (List.range sp.nblk).map fun i => (((u.s.die sp.g.die).cursors.find? (4 * sp.num)).getD 0 + i) % sp.nblk
        (∀ v, Gives (firstFree sp.g sp.fmap all) u none v → Gives (sp.allocate q l) e none v) ∧
        ∀ j v head w x k y z, Gives (firstFree sp.g sp.fmap all) u (some j) v → Gives (sp.hget 0x6C) v head w →
          Runs ([sp.putOvl j head, sp.hput 0x6C (j + 1), sp.setCursor 0 (j + 1)] ++ taken j true) w x → Gives (sp.hget 0x64) x k y →
          Runs [sp.hput 0x64 (k - 1)] y z → Gives (sp.allocate q l) e (some j) z))) ∧
  (∀ j x t u k v w, Gives (sp.entry j) e x t → x.copy = false → x.ovf = false →
    Runs [eput sp.g (sp.table + 8 * j) 8 0, putMapBit sp.g sp.fmap j false] t u → Gives (sp.hget 0x64) u k v →
    Runs [sp.hput 0x64 (k + 1)] v w → Gives (sp.freeBlock j) e () w)

/-- The chain of fork records (R360, R361): a sequence's own block; else none where its record is not FORKED or the logical block lies at or past FPOS;
else what the parent has, as inherited. -/
def Sys2Proof.KvResolves : Prop := ∀ (sp : Space) (q l : Nat) (e : EngSt),
  (∀ j t, Gives (sp.probe q l) e (some j) t → Gives (sp.resolve q l) e (some (j, false)) t) ∧
  ∀ t r u, Gives (sp.probe q l) e none t → Gives (sp.fork q) t r u →
    (r.forked = false ∨ r.fpos ≤ 64 * l → Gives (sp.resolve q l) e none u) ∧
    (r.forked = true → 64 * l < r.fpos → ∀ x v, Gives (sp.resolveFrom l 16 r.parent true) u x v → Gives (sp.resolve q l) e x v)

/-- KVMAP and KVMAP.INFO (R361, R381): the block's address, or its word of INFO, and PD; 0 and PD false for a block that there is not. -/
def Sys2Proof.KvMaps : Prop := ∀ (sp : Space) (w : Nat) (e : EngSt), Quiet sp (w % 2 ^ 20) e →
  (∀ t info, Gives (sp.resolve (w % 2 ^ 20) (bits w 43 20 / 64)) e none t → Gives (sp.kvmap w info) e (.done 0 false) t) ∧
  ∀ j inh t, Gives (sp.resolve (w % 2 ^ 20) (bits w 43 20 / 64)) e (some (j, inh)) t →
    Gives (sp.kvmap w false) e (.done (sp.pool + j * sp.blkb) true) t ∧
    ∀ x u, Gives (sp.entry j) t x u → Gives (sp.kvmap w true) e
      (.done (2 ^ 63 + (if inh then 2 ^ 62 else 0) + (if x.copy then 2 ^ 61 else 0) + x.ref * 2 ^ 40 + x.seq * 2 ^ 20 + j) true) u

/-- KVAPP (R367, R382): a block of its own, or a block allocated, or 1 and PD false where there is none; LEN and LIVE of its record follow; a block that
others share is copied: its entry gets COPY and a lower REF, and the answer comes with the copy (log 48). -/
def Sys2Proof.KvAppends : Prop := ∀ (sp : Space) (r : KvReq) (e : EngSt),
  let q := r.word % 2 ^ 20
  let p := bits r.word 43 20
  Quiet sp q e →
  (∀ t u, Gives (sp.resolve q (p / 64)) e none t → Gives (sp.allocate q (p / 64)) t none u → Gives (sp.kvapp r) e (.done 1 false) u) ∧
  (∀ t j u f v w, Gives (sp.resolve q (p / 64)) e none t → Gives (sp.allocate q (p / 64)) t (some j) u → Gives (sp.fork q) u f v →
    Runs [sp.putFork q { f with len := max f.len (p + 1), live := true }] v w → Gives (sp.kvapp r) e (.done (sp.pool + j * sp.blkb) true) w) ∧
  ∀ j inh t x u, Gives (sp.resolve q (p / 64)) e (some (j, inh)) t → Gives (sp.entry j) t x u →
    (x.ref = 1 → x.copy = false → ∀ f v w, Gives (sp.fork q) u f v →
      Runs [sp.putFork q { f with len := max f.len (p + 1), live := true }] v w → Gives (sp.kvapp r) e (.done (sp.pool + j * sp.blkb) true) w) ∧
    (x.ref ≠ 1 → (u.s.die sp.g.die).cows.length < 64 → ∀ v, Gives (sp.allocate q (p / 64)) u none v → Gives (sp.kvapp r) e (.done 1 false) v) ∧
    (x.ref ≠ 1 → (u.s.die sp.g.die).cows.length < 64 → ∀ k v rs w ws y z a b,
      Gives (sp.allocate q (p / 64)) u (some k) v → Gives (ereads sp.g (sp.pool + j * sp.blkb) sp.blkb) v rs w →
      Gives (ewrites sp.g (sp.pool + k * sp.blkb) sp.blkb) w ws y → Gives (sp.entry j) y z a →
      Runs [sp.putEntry j { z with copy := true, ref := z.ref - 1 }, sp.touch q p] a b →
      ∀ at_ d, Gives (ewhere sp.g (sp.table + 8 * j) 8) b at_ d → ∃ c,
        Gives (sp.kvapp r) e (.copy c) d ∧ c.req = r ∧ c.space = sp.num ∧ c.entry = j ∧ c.block = sp.pool + k * sp.blkb ∧ c.reads = rs ∧
          c.writes = ws ∧ c.entryAt = at_)

/-- KVFORK (R366, R383): a child that is an anchor or LIVE gives 1, F below LEN 2, own blocks at depth 15 gives 3, a shared block with REF 255 4, no free
anchor 5; else 0: at F = 0 the child is LIVE (log 48); with no own block both records keep the chain, one more holds its anchor, and every block
is shared once more; with own blocks the anchor takes record, blocks and heads of the parent, HOLD 2, and both records name it. -/
def Sys2Proof.KvForks : Prop := ∀ (sp : Space) (p f c : Nat) (e : EngSt) (rc : Fork) (t : EngSt),
  Quiet sp p e → Gives (sp.fork c) e rc t →
  (0x10000 ≤ c ∨ rc.live = true → Gives (sp.kvfork p f c) e 1 t) ∧
  (c < 0x10000 → rc.live = false → ∀ rp u, Gives (sp.fork p) t rp u →
    (f < rp.len → Gives (sp.kvfork p f c) e 2 u) ∧
    (f = 0 → rp.len = 0 → ∀ v, Runs [sp.putFork c { Fork.zero with live := true }] u v → Gives (sp.kvfork p f c) e 0 v) ∧
    (0 < f → rp.len ≤ f → ∀ ps v, let n := (f + 63) / 64
      Gives ((List.range n).mapM fun l => sp.probe p l) u ps v →
      let owned := ((List.range n).zip ps).filterMap fun o => o.2.map fun j => (o.1, j)
      (owned ≠ [] → rp.depth = 15 → Gives (sp.kvfork p f c) e 3 v) ∧
      (owned = [] ∨ rp.depth ≠ 15 → ∀ blocks w refs x, Gives (sp.resolved p n) v blocks w →
        Gives (blocks.mapM fun b => sp.entry b.2) w refs x →
        ((∃ r ∈ refs, r.ref = 255) → Gives (sp.kvfork p f c) e 4 x) ∧
        ((∀ r ∈ refs, r.ref ≠ 255) → owned = [] → ∀ y z, Runs (blocks.map fun b => sp.share b.2) x y →
          Runs ([sp.putFork c { rp with len := f }] ++ (if rp.forked then [sp.hold rp.parent] else []) ++ [sp.putFork p { rp with len := f }]) y z →
          Gives (sp.kvfork p f c) e 0 z) ∧
        ((∀ r ∈ refs, r.ref ≠ 255) → owned ≠ [] → ∀ as y, Gives sp.anchors x as y →
          (∀ z, Gives (sp.anchorFrom as) y none z → Gives (sp.kvfork p f c) e 5 z) ∧
          ∀ a z g, Gives (sp.anchorFrom as) y (some a) z → Runs (blocks.map fun b => sp.share b.2) z g →
            ∀ h v k, Runs ([sp.setCursor 2 (a - 0x10000 + 1), sp.putFork a { rp with live := true, hold := 2, len := f }] ++
                owned.map fun o => sp.rekey o.2 a o.1) g h →
              Gives (eget sp.g (sp.headAt p 0) (16 * 2 ^ sp.hbits)) h v k →
              let r : Fork := ⟨0, f, true, true, rp.depth + 1, f, a⟩
              ∀ z, Runs [eput sp.g (sp.headAt a 0) (16 * 2 ^ sp.hbits) v, eput sp.g (sp.headAt p 0) (16 * 2 ^ sp.hbits) 0,
                  sp.putFork p r, sp.putFork c r] k z →
                Gives (sp.kvfork p f c) e 0 z))))

/-- KVFREE (R369, R383): every block it resolves to loses a reference, or is freed with the last one; heads and record are freed, and anchors that nobody
holds any more with them; D tells whether there was anything. -/
def Sys2Proof.KvFrees : Prop := ∀ (sp : Space) (q : Nat) (e : EngSt), Quiet sp q e →
  ∀ r t blocks u w, Gives (sp.fork q) e r t → Gives (sp.resolved q ((r.len + 63) / 64)) t blocks u →
    Runs (blocks.map (fun b => do
        let x ← sp.entry b.2
        if x.ref ≤ 1 then sp.freeBlock b.2 else sp.putEntry b.2 { x with ref := x.ref - 1 }) ++
      [sp.freeHeads q, sp.putFork q Fork.zero, sp.release 17 r]) u w →
    Gives (sp.kvfree q) e (r.live || !blocks.isEmpty) w

/-- KSTORE (R374, R384): without its projection set cause 2, where no block is mapped cause 3, where others share it cause 4; else the key goes to its row, the
entry's place is the next in its bucket, after those still to be published, and LEN follows. -/
def Sys2Proof.KvStores : Prop := ∀ (sp : Space) (r : KvReq) (e : EngSt),
  let q := r.word % 2 ^ 20
  let p := bits r.word 43 20
  let n := if sp.fmt = 0 then 2 * sp.d else 4 * ((sp.d + sp.d / 32 + 3) / 4)
  let k := e.s.core r.core
  let at_ := k.partBase r.slot + r.b
  Quiet sp q e → e.s.projLoads r.core sp.pset = false →
  (e.s.projOf r.core sp = none → Gives (sp.kstore r) e (.trap 15 2 r.word) e) ∧
  ∀ pj, e.s.projOf r.core sp = some pj →
    (k.partSize r.slot < r.b + n → Gives (sp.kstore r) e (.trap 10 causeRange r.b) e) ∧
    (r.b + n ≤ k.partSize r.slot → e.s.spadOwed r.core (e.s.group r.core r.gid).uid r.gid r.id [(at_, n)] = false →
      let v := (k.copyRead at_ n).1
      (∀ t, Gives (sp.resolve q (p / 64)) e none t → Gives (sp.kstore r) e (.trap 15 3 r.word) t) ∧
      ∀ j inh t x u, Gives (sp.resolve q (p / 64)) e (some (j, inh)) t → Gives (sp.entry j) t x u →
        (1 < x.ref → Gives (sp.kstore r) e (.trap 15 4 r.word) u) ∧
        (x.ref ≤ 1 → x.copy = false → ∀ w,
          Runs [eput sp.g (sp.pool + j * sp.blkb + p % 64 * n) n v] u w →
          let sig := pj.signature sp.fmt v
          let b := sig / 2 ^ (16 - sp.hbits)
          ∀ h y kept z f g a l hs, Gives (sp.head q b) w h y →
            let i := h.count + ((y.s.die sp.g.die).pubs.filter fun o => o.space == sp.num && o.seq == q && o.bucket == b && !o.lost).length
            Gives (sp.fileAt q b i p sig) y kept z → Gives (sp.fork q) z f g →
            Runs [sp.putFork q { f with len := max f.len (p + 1) }] g a → Gives (ewhere sp.g (sp.heads + (q * 2 ^ sp.hbits + b) * 16) 4) a hs l →
            Gives (sp.kstore r) e (.stored ⟨r.id, r, sp.num, q, b, i, sig, !kept, l.c, hs, sp.heads + (q * 2 ^ sp.hbits + b) * 16⟩) l))

/-- CGATH (R375 to R377, R385): the buckets within the radius in probe order; a head that lost an entry or a chain past CHAIN or a set above BUDGET is a
fallback with its reason (the order of the first two log 49); else COUNT and the signature go to D and the items, in ascending
order of position, to the scratchpad. -/
def Sys2Proof.KvGathers : Prop := ∀ (sp : Space) (r : KvReq) (e : EngSt) (pj : Proj),
  let q := r.word % 2 ^ 20
  let n := if sp.fmt = 0 then 2 * sp.d else 4 * ((sp.d + sp.d / 32 + 3) / 4)
  let k := e.s.core r.core
  let at_ := k.partBase r.slot + r.b
  e.s.projLoads r.core sp.pset = false →
  (e.s.projOf r.core sp = none → Gives (sp.cgath r) e (.trap 15 2 r.word) e) ∧
  (e.s.projOf r.core sp = some pj →
    (k.partSize r.slot < r.b + n → Gives (sp.cgath r) e (.trap 10 causeRange r.b) e) ∧
    (r.b + n ≤ k.partSize r.slot → e.s.spadOwed r.core (e.s.group r.core r.gid).uid r.gid r.id [(at_, n)] = false →
      let sig := pj.signature sp.fmt (k.copyRead at_ n).1
      let us := probeOrder sp.hbits (bits r.ofs 21 20) (sig / 2 ^ (16 - sp.hbits))
      let back (reason : Nat) : Nat := sig * 2 ^ 32 + 2 ^ 48 + reason * 2 ^ 49
      (∀ why t, why ≠ 0 → Gives (sp.gather (fun x => x / 2 ^ 16) (some (bits r.ofs 19 12)) us 17 q (bits r.word 43 20 + 1) []) e (.error why) t →
        Gives (sp.cgath r) e (.done (back why) true) t) ∧
      ∀ ps t, Gives (sp.gather (fun x => x / 2 ^ 16) (some (bits r.ofs 19 12)) us 17 q (bits r.word 43 20 + 1) []) e (.ok ps) t →
        (bits r.ofs 11 0 + 1 < ps.length → Gives (sp.cgath r) e (.done (back 1) true) t) ∧
        (ps.length ≤ bits r.ofs 11 0 + 1 → ∀ items u, Gives (ps.mapM fun p => sp.item q p) t items u →
          let out := u.s.onCore r.core fun k => k.spadWrite (k.partBase r.slot + r.c) (8 * ps.length) (packElems 64 items)
          Gives (sp.cgath r) e (.done (ps.length + sig * 2 ^ 32) false) { u with s := out }))) ∧
  ∀ chain x lo hi b rest acc h t, Gives (sp.head x b) e h t →
    (h.lost = true → Gives (sp.gatherBuckets (fun x => x / 2 ^ 16) (some chain) x lo hi (b :: rest) acc) e (.error 3) t) ∧
    (h.lost = false → chain < (h.count + 63) / 64 →
      Gives (sp.gatherBuckets (fun x => x / 2 ^ 16) (some chain) x lo hi (b :: rest) acc) e (.error 2) t) ∧
    (h.lost = false → (h.count + 63) / 64 ≤ chain → ∀ es u out v, Gives (sp.chainEntries ((h.count + 63) / 64) h.first h.count) t es u →
      Gives (sp.gatherBuckets (fun x => x / 2 ^ 16) (some chain) x lo hi rest
        ((es.filter fun y => lo ≤ y / 2 ^ 16 && y / 2 ^ 16 < hi).foldl (fun a y => insertPos (y / 2 ^ 16) a) acc)) u out v →
      Gives (sp.gatherBuckets (fun x => x / 2 ^ 16) (some chain) x lo hi (b :: rest) acc) e out v)

/-- The KV engine and the gather port: their steps, and what each request answers and leaves in the table, the fork records, the heads and the output list. -/
def Obligations.KvEngineSteps : Prop :=
  KvSteps ∧ KvTable ∧ KvResolves ∧ KvMaps ∧ KvAppends ∧ KvForks ∧ KvFrees ∧ KvStores ∧ KvGathers

/-- The model's choices: CPROJ's order of checks, its parking, and the alignment of CRED's ranges (log 50); an id of KBAR that is not allotted traps (log 11); lanes of
a pager-corner core wait in phase 0 (log 69). CRED and CRED.NORM wait at the barrier with what they bring (R386, R387), CPROJ loads its cluster's projection in S and H mode (R386), and CREDs are merged when
the last group of the phase has come: the phase is over and the unit is empty. -/
def Obligations.CreditMerging : Prop :=
  (∀ f : F3,
    let uses := [src32 f.d, src32 f.a, src32 f.b, src32 f.c]
    let ctl (s : State) (c : Ctx) : Nat := (s.grp c).rd32 f.b c.low
    let waits (i : Instr) (norm : Bool) : Prop :=
      ∀ s c, CanIssue s c [] uses →
        let b := s.begun c uses
        let k := ctl b c
        c.act ≠ [] → (∀ l ∈ c.act, (b.grp c).inTx l = false) → k < 2 ^ 28 → k % 16 < b.kbarn c.core (b.grp c) →
        (∃ far slot, b.roleOf c.core (b.grp c) (bits k 7 4) = some (far, slot) ∧
          credRange (b.core far) slot ((b.grp c).rd32 f.d c.low) (credBytes k) = none) →
        credRange (b.core c.core) c.slot ((b.grp c).rd32 f.a c.low) (credBytes k) = none → b.mayRelease c.core c.gid 1 c.act = true →
        let key := kbarKey (b.grp c).opid (k % 16)
        let phase := match clusterOf c.core with
          | some cl => (((b.cluster cl).kbar.find? key).getD Barrier.reset).phase
          | none => 0
        let w : Wait := .cred key (bits k 12 8) phase k ((b.grp c).rd32 f.d c.low) ((b.grp c).rd32 f.a c.low)
          (fp32.convert .rne ((b.grp c).rdF fp32 f.c c.low)).1 norm
        ∃ t, SameState t (((b.advance c).retry c c.act).onGrp c fun x => x.onLanes c.act fun _ k => { k with wait := w }) ∧
          exec i s = .next (t.finish c)
    waits (.cred f) false ∧ waits (.credNorm f) true ∧
    (∀ s c, CanIssue s c [] [src64 f.a, src32 f.b, src32 f.c] → c.mode ≠ .u →
      let b := s.begun c [src64 f.a, src32 f.b, src32 f.c]
      let a := (b.grp c).rd64 f.a c.low % 2 ^ 53
      let d := bits ((b.grp c).rd32 f.b c.low) 8 0
      c.act ≠ [] → (∀ l ∈ c.act, (b.grp c).inTx l = false) → 8 ≤ d → d ≤ 256 → d % 8 = 0 → a % 4 = 0 →
      let row : Access := { b.newAccess c c.low ⟨0, 0, 0, 0, 0, .none, .none, .none, .none, 0⟩ (.proj f.md.toNat d ((b.grp c).rd32 f.c c.low)) a
        (32 * d) .none 0 with data := a, mask := 0 }
      let r := (if c.act.any fun l => ((b.grp c).lane l).tx.active then (b.advance c).notIdem c else b.advance c).addAccess row
      b.ownWaits c c.low a (32 * d) = false → b.logBlocks row = false →
      ∀ o cl, r.agentGetSure (r.agentFor c.core c.gid c.low c.slot c.mode) (r.withClocks { row with id := b.nextId }).c a (32 * d) = .ok o →
        clusterOf c.core = some cl →
        ∃ t, exec (.cproj f) s = .next t ∧
          (t.cluster cl).proj.find? f.md.toNat = some ⟨(b.grp c).rd32 f.c c.low, d, projRows d o.value⟩)) ∧
  (∀ s : State, ∀ first rest,
    let key := s.turn.item
    let b := ((s.cluster s.turn.unit).kbar.find? key).getD Barrier.reset
    let u := ((s.cluster s.turn.unit).creds.find? key).getD CredUnit.empty
    u.now = first :: rest →
    (b.arrived.length ≠ b.expected → exec .credMerge s = .next s) ∧
    (b.arrived.length = b.expected → u.held = [] → ∃ t, exec .credMerge s = .next t ∧ t.mem = s.mem ∧
      (t.cluster s.turn.unit).creds.find? key = some CredUnit.empty ∧
      ((t.cluster s.turn.unit).kbar.find? key).map (fun q => (q.phase, q.arrived)) = some (b.phase + 1, [])))
/-- OPBIND, OPUNBIND and OPUNBIND.CLOSE (R241), in S and H mode: once, with the lowest active lane's operands, and D says how it went (OPBIND once its reads need not wait); the balancer clones an
operator that has been hot long enough and closes a clone when its operator has been cold (R228). With no active lane nothing happens. The model's
choices: a B above 255 gives 1 to OPUNBIND and OPUNBIND.CLOSE, the lowest FREE slot for a clone and none where spare cores are too few (log 80). -/
def Sys2Proof.BindingForms : Prop :=
  (∀ f : F3,
    let system (_ : State) (c : Ctx) : Prop := c.mode ≠ .u
    let one (s : State) (c : Ctx) : Prop := system s c ∧ c.act ≠ []
    let idle (s : State) (c : Ctx) : Prop := system s c ∧ c.act = []
    let op (s : State) (c : Ctx) : Nat := (s.grp c).rd32 f.b c.low
    let bound (s : State) (c : Ctx) : Bool := decide (op s c < 256) && ((s.die (dieOf c.core)).op? (op s c)).isSome
    let answer (s : State) (c : Ctx) (code : Nat) : State := (s.advance c).onGrp c fun x => x.wr c f.d false fun _ => code
    (∀ r : State → Ctx → State × Nat × Nat × Option Nat, Completes (.opbind f) [] [dst32 f.d, src64 f.a, src32 f.b]
      (fun s c => one s c ∧ s.opbind c c.low ((s.grp c).rd64 f.a c.low) (op s c) = some (r s c)) fun s c =>
      ((r s c).1.advance c).onGrp c fun x =>
        (x.onLane c.low fun k => let k := { k with c := stampMax k.c (r s c).2.2.1 }; (r s c).2.2.2.elim k k.acquire).wr c f.d false
          fun _ => (r s c).2.1) ∧
    Completes (.opbind f) [] [dst32 f.d, src64 f.a, src32 f.b] idle (fun s c => s.advance c) ∧
    Completes (.opunbind f) [] [dst32 f.d, src32 f.b] one (fun s c =>
      if bound s c && s.opIdle (dieOf c.core) (op s c) then
        answer ((((s.die (dieOf c.core)).clonesOf (op s c)).map (fun e => e.1) ++ [op s c]).foldl (fun s n => s.freeSlot (dieOf c.core) n) s) c 0
      else answer s c 1) ∧
    Completes (.opunbind f) [] [dst32 f.d, src32 f.b] idle (fun s c => s.advance c) ∧
    Completes (.opunbindClose f) [] [dst32 f.d, src32 f.b] one (fun s c =>
      if bound s c then answer (s.closeSlot (dieOf c.core) (op s c)) c 0 else answer s c 1) ∧
    Completes (.opunbindClose f) [] [dst32 f.d, src32 f.b] idle fun s c => s.advance c) ∧
  (∀ (s : State) (die n : Nat) (o : OpSlot), (s.die die).op? n = some o →
    let u := s.closeSlot die n
    let fixed (q : OpSlot) : OpSlot := { q with hotSince := none, coldSince := none }
    ((u.die die).op? n).map fixed = some (fixed { o with st := 2 }) ∧
    (∀ m, m ≠ n → ((u.die die).op? m).map fixed = ((s.die die).op? m).map fixed) ∧ u.mem = s.mem) ∧
  (∀ s : State, ∀ o slot t, let d := s.die s.turn.unit
    let n := s.turn.item
    let spare := s.spareCores s.turn.unit (o.home / 8)
    let p := { o with roles := mapRoles o.roles spare, cloneOf := some n, ready := [], lastRole := 0, hotSince := none, coldSince := none,
                      firedAt := none, leaves := [], clone := false, st := 1 }
    d.op? n = some o → (List.range 256).find? (fun i => (d.op? i).isNone) = some slot → o.st = 1 → o.cloneOf = none → o.clone = true →
    (d.clonesOf n).length < o.cloneMax → o.hotSince = some t → t + o.balInt * 1024 ≤ s.clk → o.cores.length ≤ spare.length →
    d.kbarFails p = false → d.entriesHeld + p.sched.length ≤ 65536 →
    exec .balancerClone s =
      .next ((s.bindSlot s.turn.unit slot p).onDie s.turn.unit fun d => d.onOp n fun o => { o with hotSince := some s.clk }).clearSkip) ∧
  (∀ s : State, ∀ o m p, (s.die s.turn.unit).op? s.turn.item = some o → o.cloneOf = some m → (s.die s.turn.unit).op? m = some p →
    (o.st ≠ 1 ∨ ∃ t, p.coldSince = some t ∧ t + p.balInt * 1024 ≤ s.clk) →
    let u := if o.st = 1 then s.closeSlot s.turn.unit s.turn.item else s
    exec .balancerClose s = .next (if u.opIdle s.turn.unit s.turn.item then (u.freeSlot s.turn.unit s.turn.item).clearSkip else u.clearSkip))

/-- What OPBIND answers and leaves (R211, R213, R241, R252): 1 for a slot that is not FREE or a B above 255, 2 for a misaligned address, 8 where a read
fails; then the first of DESC (2), ROLE (3), STAGE (4), KBAR (5), RIDGE (6) and PORTAL (7) that fails, and a refusal binds nothing. A descriptor that
passes is BOUND in the slot with its fields, and its member cores and HOME Col unit have its STAGE. The model's choices: a role from 648 on
gives ROLE (log 80), a HOME in a removed cluster DESC (log 67), a PIN block that cannot be read FAULT (log 31), and which leaves stay pinned
(log 76). -/
def Sys2Proof.BindChecks : Prop := ∀ (s : State) (c : Ctx) (l addr b : Nat),
  let die := dieOf c.core
  let k := (s.grp c).lane l
  let g := s.agentFor c.core c.gid l c.slot c.mode
  let read := s.bindRead g (s.ownWaits c l) k.c (addr % 2 ^ 53)
  (256 ≤ b ∨ ((s.die die).op? (b % 256)).isSome = true → s.opbind c l addr b = some (s, 1, k.c, none)) ∧
  (b < 256 → (s.die die).op? b = none → addr % 64 ≠ 0 → s.opbind c l addr b = some (s, 2, k.c, none)) ∧
  (b < 256 → (s.die die).op? b = none → addr % 64 = 0 →
    (read = .error .busy → s.opbind c l addr b = none) ∧
    (∀ e, read = .error e → e ≠ .busy → s.opbind c l addr b = some (s, 8, k.c, none)) ∧
    ∀ r, read = .ok r →
      let home := fieldAt r.v 0x19 1
      let o := operatorOf r.v (r.raw.map entryOf) ((s.core c.core).roots c.slot).1 ((s.core c.core).roots c.slot).2
      let d := r.s.die die
      let desc := !descriptorOk r.v || !(r.raw.all entryOk) || hasRepeat (o.sched.map fun e => e.expert)
      let gone := r.s.isRemoved (die * 10 + home / 16)
      let refused (code : Nat) : Prop := s.opbind c l addr b = some (r.s, code, r.c, r.w)
      let roles := (List.range 16).map fun i => fieldAt r.v (0x30 + 2 * i) 2
      let cores := roles.filter fun n => n != 0xFFFF
      (desc = true → refused 2) ∧
      (desc = false → gone = true → cores ≠ [] → refused 2) ∧
      (desc = false → (gone = false ∨ cores = []) →
        let role := cores.isEmpty || hasRepeat cores || cores.any fun n => 640 ≤ n || n / 160 != die || r.s.isRemoved (n / 16)
        (role = true → refused 3) ∧
        (role = false →
          let stage := d.ops.any fun p => p.2.st == 1 && p.2.home == o.home && p.2.stage != o.stage
          let used (cl : Nat) : Nat := (d.ops.filter fun p => p.2.clusters.contains cl).foldl (fun n p => n + p.2.kbarn) 0
          let kbar := o.clusters.any fun cl => 64 < used cl + fieldAt r.v 0x1A 1
          let ridge := 65536 < d.entriesHeld + o.sched.length ∨ d.pinMax < pinBytes o.sched + d.ops.foldl (fun n p => n + pinBytes p.2.sched) 0
          (stage = true → refused 4) ∧ (stage = false → kbar = true → refused 5) ∧ (stage = false → kbar = false → ridge → refused 6) ∧
          (stage = false → kbar = false → ¬ridge → (∀ e ∈ o.sched, e.pin = false) → r.s.setsFull r.s.pinned = true → refused 6) ∧
          (stage = false → kbar = false → ¬ridge → (∀ e ∈ o.sched, e.pin = false) →
            (r.s.setsFull r.s.pinned = false → r.s.portalMissing o.portal = true → refused 7) ∧
            (r.s.setsFull r.s.pinned = false → r.s.portalMissing o.portal = false →
              ∃ t q, s.opbind c l addr b = some (t, 0, r.c, r.w) ∧ t.mem = r.s.mem ∧ (t.die die).op? b = some q ∧ q.st = 1 ∧
                q.entry = fieldAt r.v 0 8 ∧ q.window = fieldAt r.v 0x14 2 ∧ q.groups = fieldAt r.v 0x16 1 ∧ q.ctxslot = fieldAt r.v 0x17 1 ∧
                q.stage = fieldAt r.v 0x18 1 ∧ q.home = 8 * (home / 16) + home % 16 ∧ q.kbarn = fieldAt r.v 0x1A 1 ∧
                q.roles = (roles.map fun n => if n = 0xFFFF then none else some n) ∧ q.cloneOf = none ∧ q.ready = [] ∧
                ((t.die die).col q.home).stage = q.stage ∧ (∀ n ∈ cores, (t.core n).stage = q.stage) ∧
                ∀ m, m ≠ b → ((t.die die).op? m).map (fun p => { p with hotSince := none, coldSince := none }) =
                  ((r.s.die die).op? m).map fun p => { p with hotSince := none, coldSince := none })))))

/-- Binding and unbinding operators, and clones. -/
def Obligations.BindingOperators : Prop := BindingForms ∧ BindChecks

/-- Calls (R414, R415): every active lane of SYSC below H mode, of HCALL outside U mode and of BRK takes the trap of its kind with the next instruction as TPC,
its own address as TVAL and the literal as TINFO; the others go on; SYSC in H mode is an illegal instruction of the whole set. -/
def Sys2Proof.CallsTakeTheirTraps : Prop :=
  ∀ f : FI,
    let call (s : State) (c : Ctx) (kind : Nat) : State :=
      (s.advance c).enterTraps c.core c.gid (fun _ => ⟨kind, 0, c.next, c.pc.toNat, f.imm.toNat, none⟩) c.act
    let out (s : State) (c : Ctx) : State := if c.act.all (s.grp c).inTx then s else s.notIdem c
    CompletesWaiting (.sysc f) [] [] (fun _ c => c.mode ≠ .h) (fun s c => call (out s c) c 0) ∧
    CompletesWaiting (.sysc f) [] [] (fun _ c => c.mode = .h) (fun s c => s.trapSet c 5) ∧
    CompletesWaiting (.hcall f) [] [] (fun _ c => c.mode ≠ .u) (fun s c => call (out s c) c 22) ∧
    CompletesWaiting (.brk f) [] [] (fun _ _ => True) fun s c => call s c 20

/-- Taking a trap (R410, R411; where R50 speaks of a vector too, the model follows R411, log 60) with room on the lane's stack, no transaction and a vector that can be fetched: one entry is pushed that holds PC, mode, predicate
word, kind, cause and TVAL; the lane stands at the vector in the target mode with its predicate word as before. No other lane and no memory changes. -/
def Obligations.TrapEntrySavesTheLane : Prop :=
  ∀ (s : State) (core gid l : Nat) (t : TrapInfo) (x : Group),
    s.group? core gid = some x → l < x.lanes.length → (x.lane l).tx.active = false → (x.lane l).traps.length < 4 → t.kind ≠ 18 →
    let k := s.core core
    let m := trapMode k.hdeleg (x.lane l).mode t.kind
    let v := k.vector x.slot m t.kind
    s.vectorOk core x.slot m v = true →
    let u := s.enterTrap core gid l t
    let y := (u.group core gid).lane l
    y.traps = ⟨t.tpc, (x.lane l).mode.code, (x.lane l).pred, t.kind, t.cause, t.tval, t.tinfo, t.access⟩ :: (x.lane l).traps ∧
    y.mode = m ∧ y.pc = v ∧ y.pred = (x.lane l).pred ∧ y.c = (x.lane l).c ∧ u.mem = s.mem ∧
    (∀ j, j ≠ l → (u.group core gid).lane j = x.lane j) ∧ (u.group core gid).v = x.v ∧ (u.group core gid).s = x.s

/-- SRET below H mode and HRET (R413, R416): each active lane with an entry returns to its PC, mode and predicate word and drops it; a lane without one takes an
illegal-instruction trap. In H mode SRET is an illegal instruction of the whole set. -/
def Sys2Proof.ReturnsRestoreTheLane : Prop :=
  (let returns (i : Instr) (ok : Ctx → Prop) : Prop := ∀ s c, CanIssue s c [] [] → ok c →
      let b := s.begun c []
      let r := (b.advance c).laneFold (fun s l => s.retLane c l) c.act
      (∃ u, SameState u ((r.1.retry c (r.2.map fun e => e.1)).trapLanes c r.2) ∧ exec i s = .next (u.finish c)) ∧
      ((∀ l ∈ c.act, ((b.grp c).lane l).traps ≠ []) → r.2 = [])
   returns .sret (fun c => c.mode = .s) ∧ returns .hret fun c => c.mode = .h) ∧
  CompletesWaiting .sret [] [] (fun _ c => c.mode = .h) (fun s c => s.trapSet c 5) ∧
  (∀ (s : State) (c : Ctx) (l : Nat) (x : Group) (e : TrapEntry) (rest : List TrapEntry),
    s.group? c.core c.gid = some x → l < x.lanes.length → (x.lane l).traps = e :: rest → e.access = none →
    ∃ t, s.retLane c l = .ok t ∧ ((t.grp c).lane l).pc = e.tpc ∧ ((t.grp c).lane l).mode = (if e.pmode = 0 then .u else if e.pmode = 1 then .s else .h) ∧
      ((t.grp c).lane l).pred = e.tpred ||| 0x8000#16 ∧ ((t.grp c).lane l).traps = rest ∧ t.mem = s.mem ∧
      ∀ j, j ≠ l → (t.grp c).lane j = x.lane j)

/-- RDPR, WRPR and WRPR.X on a register that the mode may use (R417, R418): D receives each lane's register or the core's; a write sets a lane register in each
active lane, or the bits of another that a write sets, from the lowest one; WRPR.X gives the old value. SPMAP and ACCOWN are written later (R158, R164). The model's choices: a WRPR of either stalls its whole
set (log 52), and groups resident in a slot of SPMAP are looked at when it issues (log 79). -/
def Sys2Proof.PrivilegedRegisterAccess : Prop :=
  ∀ f : FI,
    let n := f.imm.toNat
    let w := prWide n
    let may (write : Bool) (s : State) (c : Ctx) : Prop := c.act ≠ [] ∧ s.prAllowed write n c (s.grp c) = true
    Completes (.rdpr f) [] [dstW w f.d] (may false) (fun s c =>
      ((s.prRead c.core n).advance c).onGrp c fun y =>
        y.wr c f.d w fun l => if prLane n then ((s.grp c).lane l).pr n else s.pr c.core n) ∧
    (let writes (i : Instr) (uses : List Use) (old : Ctx → (Nat → Nat) → Group → Group) : Prop :=
      (prLane n = true → Completes i [] uses (may true) fun s c => (s.advance c).onGrp c fun y =>
        (old c (fun l => ((s.grp c).lane l).pr n) y).onLanes c.act fun l k => k.setPr n ((s.grp c).rd f.a l w)) ∧
      (prLane n = false → n ≠ 21 → n ≠ 22 → Completes i [] uses (may true) fun s c =>
        ((s.setPr c.core n (prNew c.mode n (s.pr c.core n) ((s.grp c).rd f.a c.low w))).advance c).onGrp c
          (old c fun _ => s.pr c.core n)) ∧
      (prLane n = false → (n = 21 ∨ n = 22) →
        let v (s : State) (c : Ctx) : Nat := prNew c.mode n (s.pr c.core n) ((s.grp c).rd f.a c.low w)
        CompletesWaiting i [] uses (fun s c => may true s c ∧
          (if n = 21 then (s.core c.core).spmapNew = none ∧ (s.core c.core).spmapBad (v s c) = false
           else (s.core c.core).accownNew = none)) fun s c =>
        let new := some (BitVec.ofNat 64 (v s c), c.gid, s.nextId)
        ({ s with nextId := s.nextId + 1 }.onCore c.core fun k =>
          if n = 21 then { k with spmapNew := new } else { k with accownNew := new }).onGrp c fun x =>
            (old c (fun _ => s.pr c.core n) x).onLanes c.set fun _ k => { k with wait := .reply s.nextId })
     writes (.wrpr f) [srcW w f.a] (fun _ _ x => x) ∧
     writes (.wrprX f) [srcW w f.a, dstW w f.d] fun c v x => x.wr c f.d w v)

/-- What a write of a privileged register leaves (R4, R417): bits outside the register's writable and write-1-to-clear bits keep their values; writable bits take the
written ones; a write-1-to-clear bit is cleared exactly where 1 is written. -/
def Sys2Proof.RegisterWriteBits : Prop :=
  ∀ (m : Mode) (n old v i : Nat), i < 64 → old < 2 ^ 64 → n ≤ 119 →
    ((prMask m n).testBit i = true → (prNew m n old v).testBit i = v.testBit i) ∧
    ((prMask m n).testBit i = false → (prClears n).testBit i = false → (prNew m n old v).testBit i = old.testBit i) ∧
    ((prMask m n).testBit i = false → (prClears n).testBit i = true → (prNew m n old v).testBit i = (old.testBit i && !v.testBit i))

/-- HALTG.STOP, GO, KILL and QUERY (R423) on a resident group that the mode may name: STOP halts the chosen live lanes, GO frees those halted, KILL ends them, QUERY tells
them with the lowest one's reason; D receives the lanes. A GROUPID that names no group gives 0; one of another slot traps in S mode. The model's choices: which lanes D names, and that the first reason of
a halt stays (log 53). -/
def Sys2Proof.HaltingGroups : Prop :=
  ∀ f : FK,
    let holds (i : Instr) (wide : Bool) (ok : State → Ctx → Nat → Prop) (v : State → Ctx → Nat → Nat) (eff : State → Ctx → Nat → State) : Prop :=
      let uses := [dstW wide f.d, src32 f.a]
      (∀ g, CompletesWaiting i [] uses
        (fun s c => c.mode ≠ .u ∧ c.act ≠ [] ∧ s.haltTarget f c = .ok (some g) ∧
          ok ((s.advance c).onGrp c fun y => y.wr c f.d wide fun _ => v s c g) c g)
        fun s c => eff ((s.advance c).onGrp c fun y => y.wr c f.d wide fun _ => v s c g) c g) ∧
      CompletesWaiting i [] uses (fun s c => c.mode ≠ .u ∧ c.act ≠ [] ∧ s.haltTarget f c = .ok none)
        (fun s c => (s.advance c).onGrp c fun y => y.wr c f.d wide fun _ => 0) ∧
      (∀ k, CompletesWaiting i [] uses (fun s c => c.mode ≠ .u ∧ c.act ≠ [] ∧ s.haltTarget f c = .error k) fun s c =>
        s.enterTraps c.core c.gid (fun _ => ⟨k, 0, c.pc, 0, 0, none⟩) c.act) ∧
      CompletesWaiting i [] uses (fun _ c => c.mode ≠ .u ∧ c.act = []) fun s c => s.advance c
    let lanes (s : State) (c : Ctx) (g : Nat) : List Nat := s.haltLanes c.core g f
    let halted (s : State) (c : Ctx) (g : Nat) (ls : List Nat) : List Nat := ls.filter fun l => ((s.group c.core g).lane l).halted.isSome
    holds (.haltgStop f) false (fun _ _ _ => True) (fun s c g => maskOf (lanes s c g)) (fun s c g =>
      s.onLanes c.core g (lanes s c g) fun _ k => { k with halted := some (k.halted.getD .stop) }) ∧
    holds (.haltgGo f) false (fun _ _ _ => True) (fun s c g => maskOf (halted s c g (lanes s c g))) (fun s c g =>
      s.onLanes c.core g (halted s c g (lanes s c g)) fun _ k => { k with halted := none }) ∧
    holds (.haltgQuery f) true (fun _ _ _ => True) (fun s c g =>
      let ls := halted s c g (s.group c.core g).live
      maskOf ls + (match ls with | [] => 0 | l :: _ => (((s.group c.core g).lane l).halted.map HaltReason.code).getD 0) * 2 ^ 32)
      (fun s _ _ => s) ∧
    (∀ t : State → Ctx → Nat → State, holds (.haltgKill f) false
      (fun s c g =>
        (let clear := ((lanes s c g).flatMap fun l => s.stuck c.core g l).foldl State.discard s
         clear.mayRelease c.core g 3 ((s.group c.core g).runs (lanes s c g)) = true) ∧ s.kill c.core g (lanes s c g) = some (t s c g))
      (fun s c g => maskOf (lanes s c g)) t)

/-- Freezing (R429), budgets (R427, R430) and idempotence (R424), in the modes that may: FREEZE freezes and thaws a region's or a slot's groups, SVCFG.BUDGET sets each active
lane's budget, SVCFG.NOIDEM ends the group's idempotence, BUDGET_EXPIRE makes a spent budget's trap pending. With no active lane nothing happens. -/
def Sys2Proof.FreezeAndBudget : Prop :=
  (∀ f : FI,
    let n := f.imm.toNat
    let freezes (i : Instr) (act : State → Ctx → State) : Prop :=
      CompletesWaiting i [] [] (fun _ c => c.mode = .h ∧ c.act ≠ []) (fun s c => (act s c).advance c) ∧
      CompletesWaiting i [] [] (fun _ c => c.mode = .h ∧ c.act = []) fun s c => s.advance c
    let slot (k : Core) (v : Option Nat) : Core := k.mapGroups fun x => if x.slot = n then { x with frozenSlot := v } else x
    freezes (.freezeRegion f) (fun s c => s.freezeRegion (dieOf c.core) n) ∧
    freezes (.freezeThaw f) (fun s c => s.thawRegion (dieOf c.core) n) ∧
    freezes (.freezeSlot f) (fun s c => if ((s.core c.core).frozen.find? n).isSome then s
      else s.onCore c.core fun k =>
        let k := { slot k (some s.clk) with frozen := k.frozen.put n s.clk }
        k.interrupt k.opFrozen) ∧
    freezes (.freezeSlotthaw f) (fun s c => s.onCore c.core fun k => { slot k none with frozen := k.frozen.erase n }) ∧
    Completes (.svcfgBudget f) [] [src32 f.a] (fun _ c => c.mode ≠ .u) fun s c =>
      (s.advance c).onGrp c fun x => x.onLanes c.act fun l k =>
        let b := min ((s.grp c).rd32 f.a l + n) (2 ^ 32 - 1)
        { k with budget := if b = 0 then none else some (64 * b) }) ∧
  Completes .svcfgNoidem [] [] (fun _ c => c.mode ≠ .u ∧ c.act ≠ []) (fun s c => (s.advance c).notIdem c) ∧
  Completes .svcfgNoidem [] [] (fun _ c => c.mode ≠ .u ∧ c.act = []) (fun s c => s.advance c) ∧
  Happens .budgetExpire (fun s => ((s.group s.turn.unit s.turn.item).lane s.turn.sub).budget = some 0) (fun s =>
    ((s.leaveWait s.turn.unit s.turn.item s.turn.sub).onLane s.turn.unit s.turn.item s.turn.sub fun k => { k with budget := none }).addPending
      s.turn.unit s.turn.item s.turn.sub ⟨21, 0, 0, 0, none, none⟩) ∧
  (∀ s : State, ((s.group s.turn.unit s.turn.item).lane s.turn.sub).budget ≠ some 0 → exec .budgetExpire s = .next s)

/-- TLBINV (R283, R420) with active lanes, legal operands and the lanes' earlier accesses performed: one invalidation with a target for each active lane stands last, and the set waits
for its switch; at the switch no translation that a target covers is left, the waiting lanes go on, and memory stays. The model's choices: what an
invalidation waits for (log 54) and that ASID's C has no VMID in S mode (log 52). -/
def Sys2Proof.TranslationShootdown : Prop :=
  (∀ f : FM,
    let own (s : State) (c : Ctx) : Nat × Nat := (bits ((s.core c.core).roots c.slot).1 11 0, bits ((s.core c.core).roots c.slot).2 11 0)
    let w (s : State) (c : Ctx) (l : Nat) : Nat := (s.grp c).rd32 f.c l
    let begins (i : Instr) (uses : List Use) (may : Ctx → Prop) (good : Nat → Prop) (target : State → Ctx → Nat → InvalTarget) : Prop :=
      CompletesWaiting i [] uses (fun s c => may c ∧ c.act ≠ [] ∧ (∀ l ∈ c.act, good (w s c l)) ∧
          s.mayRelease c.core c.gid f.scope.toNat c.act = true) fun s c =>
        ({ s with nextId := s.nextId + 1, invals := s.invals ++ [(⟨s.nextId, c.core, c.gid, maskOf c.act, c.act.map (target s c),
            s.passesUnder (c.act.map (target s c))⟩ : Inval)] } : State).onGrp c fun x =>
          x.onLanes c.set fun _ k => { k with wait := .reply s.nextId }
    let system (c : Ctx) : Prop := c.mode ≠ .u
    begins (.tlbinvVa f) [src64 f.a, src32 f.b] system (fun _ => True) (fun s c l => ⟨0, fmAddr f (s.grp c) l, (own s c).1, (own s c).2⟩) ∧
    begins (.tlbinvAsid f) [src32 f.c] system (fun v => bits v 15 12 = 0 ∧ bits v 31 28 = 0)
      (fun s c l => ⟨1, 0, bits (w s c l) 11 0, if c.mode = .h then bits (w s c l) 27 16 else (own s c).2⟩) ∧
    begins (.tlbinvVmid f) [src32 f.c] (fun c => c.mode = .h) (fun v => bits v 15 0 = 0 ∧ bits v 31 28 = 0)
      (fun s c l => ⟨2, 0, 0, bits (w s c l) 27 16⟩) ∧
    begins (.tlbinvAll f) [] system (fun _ => True) fun s c _ => ⟨if c.mode = .h then 3 else 1, 0, (own s c).1, (own s c).2⟩) ∧
  (∀ s : State, ∀ i, s.invals.find? (fun i => i.id == s.turn.unit) = some i →
    (∀ p ∈ i.passes, ∀ q ∈ (s.die p.1).ridge.passes, q.id ≠ p.2) → (∀ a ∈ s.accesses, s.beforeSwitch i a = false) →
    s.kvBeforeSwitch i = false →
    ∃ t, exec .tlbinvSwitch s = .next t ∧ t.mem = s.mem ∧ (∀ j ∈ t.invals, j.id ≠ i.id) ∧
      (∀ core, (t.core core).tlb = tlbWithout i.targets (s.core core).tlb) ∧ (∀ d, (t.die d).ltlb = tlbWithout i.targets (s.die d).ltlb))

/-- The pager's answers and error replay (R421, R422): PGDONE and PGDONE.DENY resolve each active lane's record in ascending order and say in D which named one; REPLAY.RETRY and
REPLAY.DATA act lane by lane on the access of an error trap, a lane whose top entry is none traps; REPLAY.OP lets the oldest of the group's stopped matrix
steps go on (log 81). The model's choices: D of a record that cannot be read, and what a parked access without a log entry is matched by (log
55). -/
def Sys2Proof.PagerAnswers : Prop :=
  (∀ f : F3,
    let answers (i : Instr) (deny : Bool) : Prop := CompletesWaiting i [] [dst32 f.d, src64 f.a]
      (fun s c => c.mode ≠ .u ∧ (∀ l ∈ c.act, (s.grp c).rd64 f.a l % 8 = 0 ∧ s.recordRead c ((s.grp c).rd64 f.a l) l ≠ .error .busy) ∧
        s.mayRelease c.core c.gid 3 c.act = true) fun s c =>
      let r := c.act.foldl (fun (r : State × List (Nat × Nat)) l =>
        let q := r.1.pgdoneLane c deny f.d ((s.grp c).rd64 f.a l) l
        (q.1, r.2 ++ [(l, q.2)])) (s.advance c, [])
      r.1.onGrp c fun y => y.wr c f.d false fun l => valueFor r.2 l
    answers (.pgdone f) false ∧ answers (.pgdoneDeny f) true) ∧
  (let replays (i : Instr) (uses : State → List Use) (lane : State → Ctx → Nat → Except TrapInfo State) : Prop :=
    ∀ s c, CanIssue s c [] (uses s) → c.mode ≠ .u →
      let b := s.begun c (uses s)
      let r := (b.advance c).laneFold (fun s l => lane s c l) c.act
      exec i s = .next (((r.1.retry c (r.2.map fun e => e.1)).trapLanes c r.2).finish c)
   (∀ f : FK, replays (.replayData f) (fun s => [s.replayUse f]) fun s c l => s.replayData f c l) ∧
   replays .replayRetry (fun _ => []) fun s c l =>
    match s.errored c l with
    | .error t => .error t
    | .ok (some a) => .ok ((s.unpark a.id false).onLane c.core c.gid l Lane.resolved)
    | .ok none => .ok s) ∧
  CompletesWaiting .replayOp [] []
    (fun s c => c.mode ≠ .u ∧ c.act ≠ [] ∧ ((s.grp c).step = [] ∨ (s.core c.core).queue.length < 8))
    (fun s c => (s.advance c).onCore c.core fun k => k.resumeStep c.gid) ∧
  CompletesWaiting .replayOp [] [] (fun _ c => c.mode ≠ .u ∧ c.act = []) fun s c => s.advance c

/-- CTXSV and CTXLD (R425, R426) in H mode with an active lane: an operand that a check refuses gives its code in D and changes nothing else; a slot at rest is saved into the area and D
receives what was saved; a legal area that fits is loaded and D receives 0; the active lanes acquire the area's stamps. The model's choices: SLOT before
ALIGN, what a save waits for, who reads and writes the area (log 56), and that an area which cannot be read gives HEADER (log 18). -/
def Sys2Proof.ContextForms : Prop :=
  ∀ f : F3,
    let uses := [dst32 f.d, src64 f.a, src64 f.b]
    let a (s : State) (c : Ctx) : Nat := (s.grp c).rd64 f.a c.low
    let b (s : State) (c : Ctx) : Nat := (s.grp c).rd64 f.b c.low
    let put (s : State) (c : Ctx) (v : Nat) : State := (s.advance c).onGrp c fun y => y.wr c f.d false fun _ => v
    let hyp (c : Ctx) : Prop := c.mode = .h ∧ c.act ≠ []
    (∀ v, CompletesWaiting (.ctxsv f) [] uses (fun s c => hyp c ∧ s.ctxsvCode c (a s c) (b s c) = some v) fun s c => put s c v) ∧
    (∀ r : State → Ctx → State × Nat × Nat, CompletesWaiting (.ctxsv f) [] uses
      (fun s c =>
        let mine : Saving := ⟨b s c % 4, c.gid, (s.grp c).uid, c.low, c.pc⟩
        let t := if (s.core c.core).saving = some mine then s else s.beginSave c (b s c % 4)
        hyp c ∧ s.ctxsvCode c (a s c) (b s c) = none ∧ ((s.core c.core).saving = none ∨ (s.core c.core).saving = some mine) ∧
        t.slotQuiet c.core (b s c % 4) = true ∧ t.saveSlot c (b s c % 4) (a s c) = .ok (r s c)) fun s c =>
      (put (r s c).1 c (r s c).2.1).onGrp c fun y => y.onLanes c.act fun _ k => k.acquire (r s c).2.2) ∧
    (∀ v, CompletesWaiting (.ctxld f) [] uses
      (fun s c => hyp c ∧ ∃ area, s.ctxRead c (a s c) = .ok area ∧ s.ctxldCode c (a s c) (b s c) area = some v) fun s c => put s c v) ∧
    (∀ r : State → Ctx → CtxRead, CompletesWaiting (.ctxld f) [] uses
      (fun s c => hyp c ∧ s.ctxRead c (a s c) = .ok (some (r s c)) ∧ s.ctxldCode c (a s c) (b s c) (some (r s c)) = none ∧
        (s.core c.core).fits (b s c % 4) (r s c).i = true) fun s c =>
      (put ((r s c).s.loadSlot c.core (b s c % 4) (r s c).h (r s c).i) c 0).onGrp c fun y =>
        y.onLanes c.act fun _ k => k.acquire ((r s c).w.elim (r s c).c fun w => stampMax (r s c).c w)) ∧
    CompletesWaiting (.ctxsv f) [] uses (fun _ c => c.mode = .h ∧ c.act = []) (fun s c => s.advance c) ∧
    CompletesWaiting (.ctxld f) [] uses (fun _ c => c.mode = .h ∧ c.act = []) fun s c => s.advance c

/-- A range of this package's domain memory that the issuing lane can read and write at once: HBM with an owner, request slots free in every channel
(R267), no access of the lowest active lane outstanding, and no checkpoint mode (R431). -/
def Sys2Proof.AreaOpen (s : State) (c : Ctx) (a n : Nat) : Prop :=
  a + n ≤ 2 ^ 51 ∧ (∀ p, a ≤ p → p < a + n → s.isHbm p = true ∧ (s.owner p).isSome = true) ∧ (∀ die ch, s.slotsHeld die ch < 1024) ∧
  (∀ b ∈ s.accesses, ¬(b.core = c.core ∧ b.gid = c.gid ∧ b.lane = c.low)) ∧ (s.core c.core).ckptMode = 0

/-- CTXSV completes (R425, R426): in H mode, B below 4 and not the issuing lane's slot, A 4 KiB-aligned, no other save under way, the slot at rest, and the
area open: D is the bytes written; the header stands in memory at A and the body behind it; no group of the slot is resident, and a granule of
theirs that no group of another slot has is free. The body's bytes are the model's layout (log 18), what rests log 56 and log 75. -/
def Sys2Proof.ContextSaves : Prop :=
  ∀ (f : F3) (s : State) (c : Ctx), let uses := [dst32 f.d, src64 f.a, src64 f.b]
    CanIssue s c [] uses → c.mode = .h → c.act ≠ [] →
    let s0 := s.begun c uses
    let a := (s0.grp c).rd64 f.a c.low
    let k := (s0.grp c).rd64 f.b c.low
    let mine : Saving := ⟨k, c.gid, (s0.grp c).uid, c.low, c.pc⟩
    let t := if (s0.core c.core).saving = some mine then s0 else s0.beginSave c k
    let out := (t.core c.core).flushed k
    let u := out.foldl (fun s x => s.flush c.core x) t
    let body := (u.ctxImage c.core k).bytes
    let n := 64 + body.length
    k < 4 → k ≠ c.slot → a < 2 ^ 52 → a % 4096 = 0 → s0.isHbm a = true → (s0.owner a).isSome = true →
    ((s0.core c.core).saving = none ∨ (s0.core c.core).saving = some mine) → t.slotQuiet c.core k = true → AreaOpen u c a n →
    let header := 0x56534331 + 2 ^ 32 + k * 2 ^ 48 + ((u.core c.core).slotGroups k).length * 2 ^ 56 + n * 2 ^ 64 +
      (u.core c.core).partSize k / 4096 * 2 ^ 96 + (u.core c.core).accMask k * 2 ^ 112 + out.length * 2 ^ 120 + c.core * 2 ^ 128 +
      xorWords (body.length / 4) body * 2 ^ 160 + u.clk * 2 ^ 192
    ∃ (v : State) (w : Nat) (q : State), q = ((v.advance c).onGrp c fun y => y.wr c f.d false fun _ => n).onGrp c (fun y => y.onLanes c.act fun _ k => k.acquire w) ∧
      exec (.ctxsv f) s = .next (q.finish c) ∧
      (∀ i, i < 64 → v.read (a + i) 1 = header / 256 ^ i % 256) ∧ (∀ i, i < body.length → v.read (a + 64 + i) 1 = (body[i]?).getD 0 % 256) ∧
      (q.finish c).mem = v.mem ∧ ((q.finish c).core c.core).slotGroups k = [] ∧
      (∀ x ∈ (s0.core c.core).slotGroups k, ∀ g ∈ x.window, g < 96 →
        (∀ e ∈ (s0.core c.core).groups, e.2.slot ≠ k → g ∉ e.2.window) → g ∈ ((q.finish c).core c.core).freeGranules)

/-- CTXLD completes (R426): in H mode, B's low bits a slot that holds no group and is not the issuing lane's own, A 4 KiB-aligned, the area open, with no
uncorrectable sector, its header legal with CHECK right, its body one of the model's layout (log 18) for as many groups as NGROUPS, the partition
and tiles large enough, and room for groups, granules and queued operations: D is 0, and every saved GROUPID is resident in the slot with its
registers. -/
def Sys2Proof.ContextLoads : Prop :=
  ∀ (f : F3) (s : State) (c : Ctx) (i : CtxImage), let uses := [dst32 f.d, src64 f.a, src64 f.b]
    CanIssue s c [] uses → c.mode = .h → c.act ≠ [] →
    let s0 := s.begun c uses
    let a := (s0.grp c).rd64 f.a c.low
    let k := (s0.grp c).rd64 f.b c.low % 4
    let header := s0.read a 64
    let n := bits header 95 64
    let body := (List.range (n - 64)).map fun j => s0.read (a + 64) (n - 64) / 256 ^ j % 256
    k ≠ c.slot → (s0.core c.core).inSlot k = 0 → a < 2 ^ 52 → a % 4096 = 0 → AreaOpen s0 c a n →
    (∀ x ∈ s0.poison, 32 * x + 32 ≤ a ∨ a + n ≤ 32 * x) →
    (bits header 31 0 = 0x56534331 ∧ bits header 47 32 = 1 ∧ bits header 55 48 < 4 ∧ bits header 63 56 ≤ 24 ∧ 64 ≤ n ∧ n ≤ 5 * 2 ^ 20 ∧
      n % 4 = 0 ∧ bits header 111 96 ≤ 96 ∧ bits header 119 112 < 16 ∧ bits header 159 144 = 0 ∧ bits header 511 256 = 0) →
    xorWords (body.length / 4) body = bits header 191 160 → CtxImage.ofBytes c.core body = some i →
    i.groups.length = bits header 63 56 → (∀ x ∈ i.groups, x.gid < 24) → i.groups.Pairwise (fun x y => x.gid ≠ y.gid) →
    bits header 111 96 ≤ (s0.core c.core).partSize k / 4096 → bits header 119 112 &&& (s0.core c.core).accMask k = bits header 119 112 →
    i.groups.foldl (fun m x => m + x.window.length) 0 ≤ (s0.core c.core).freeGranules.length →
    (s0.core c.core).groups.length + i.groups.length ≤ 24 → i.groups.length ≤ (s0.core c.core).gmax k →
    (∀ x ∈ i.groups, (s0.core c.core).groups.find? x.gid = none) → (s0.core c.core).queue.length + i.ops.length ≤ 8 →
    ∃ (v : State) (w : Nat) (q : State), q = ((v.advance c).onGrp c fun y => y.wr c f.d false fun _ => 0).onGrp c (fun y => y.onLanes c.act fun _ k => k.acquire w) ∧
      exec (.ctxld f) s = .next (q.finish c) ∧ (q.finish c).mem = s0.mem ∧
      ∀ x ∈ i.groups, ∃ y, (q.finish c).group? c.core x.gid = some y ∧ y.slot = k ∧ y.v = x.v ∧ y.s = x.s ∧ y.opid = x.opid ∧
        y.masks.length = x.masks.length ∧ y.lanes.length = x.lanes.length

/-- CTXSV and CTXLD: their forms, and where they complete. -/
def Obligations.ContextSaveAndLoad : Prop := ContextForms ∧ ContextSaves ∧ ContextLoads
/-- The management region through BAR0 (R435, R437, R439, R445, R446): the package wakes (R447), and a host write reaches its register: PKGID only while PSLEN is
0 (the package's own memory goes with it: log 24), PSLEN, TOL, HWIN's base, an MSI-X vector's message or its pending bit (log 16); the read-only
registers and unlisted offsets stay; a read is completed with the register; of another size or alignment a write is dropped and a read completed
as unsupported. -/
def Sys2Proof.HostRegisters : Prop :=
  Happens .pkgcfgWrite (fun _ => True) (fun s => s.woken.mgmtWrite 0x000 (s.turn.value % 2 ^ 64)) ∧
  Happens .lattolWrite (fun _ => True) (fun s => s.woken.mgmtWrite 0x010 (s.turn.value % 2 ^ 64)) ∧
  Happens .msixdbWrite (fun _ => True) (fun s => s.woken.mgmtWrite 0x018 (s.turn.value % 2 ^ 64)) ∧
  (let fits (s : State) : Prop := s.turn.size = 8 ∧ s.turn.addr % 8 = 0 ∧ s.turn.addr < 2 ^ 24
   Happens .mgmtRegWrite (fun s => fits s ∧ s.turn.flag = false) (fun s => s.woken.mgmtWrite s.turn.addr (s.turn.value % 2 ^ 64)) ∧
   Happens .mgmtRegWrite (fun s => fits s ∧ s.turn.flag = true) (fun s => s.woken.complete true (s.woken.mgmtRead s.turn.addr)) ∧
   Happens .mgmtRegWrite (fun s => ¬fits s ∧ s.turn.flag = false) (fun s => s.woken) ∧
   Happens .mgmtRegWrite (fun s => ¬fits s ∧ s.turn.flag = true) fun s => s.woken.complete false 0) ∧
  (∀ s : State, s.woken.power = 0 ∧ s.woken.mem = s.mem ∧ s.woken.pkgcfg = s.pkgcfg ∧ s.woken.hwin = s.hwin) ∧
  (∀ (s : State) (v : Nat), v < 2 ^ 64 →
    (∀ i, i < 64 → (s.mgmtWrite 0x000 v).pkgcfg.getLsbD i =
      if i = 0 then v.testBit 0 else if 40 ≤ i ∧ i ≤ 49 ∧ s.pkgcfg.getLsbD 0 = false then v.testBit i else s.pkgcfg.getLsbD i) ∧
    (∀ i, i < 64 → ¬(40 ≤ i ∧ i ≤ 42) → (s.mgmtWrite 0x010 v).lattol.getLsbD i = if i < 32 then v.testBit i else s.lattol.getLsbD i) ∧
    (s.mgmtWrite 0x010 v).power = ({ s with lattol := BitVec.ofNat 64 (setBits s.lattol.toNat 31 0 (v % 2 ^ 32)) } : State).deepest ∧
    (∀ i, i < 64 → (s.mgmtWrite 0x020 v).hwin.getLsbD i = (decide (36 ≤ i) && decide (i ≤ 51) && v.testBit i)) ∧
    (let at_ := ((s.msix.find? (2 * v)).map BitVec.toNat).getD 0
     let word := ((s.msix.find? (2 * v + 1)).map BitVec.toNat).getD (2 ^ 32)
     let t := s.mgmtWrite 0x018 v
     (v < 2048 → word.testBit 32 = false → t.messages = s.messages ++ [(at_, word % 2 ^ 32)] ∧ v ∉ t.msixPending) ∧
     (v < 2048 → word.testBit 32 = true → t.messages = s.messages ∧ v ∈ t.msixPending) ∧ (2048 ≤ v → t = s)) ∧
    (∀ o, o ∉ [0x000, 0x010, 0x018, 0x020] → ¬(0x100000 ≤ o ∧ o < 0x108000) → s.mgmtWrite o v = s) ∧
    (∀ o, 0x100000 ≤ o → o < 0x108000 → (s.mgmtWrite o v).msix.find? ((o - 0x100000) / 8) = some (BitVec.ofNat 64 v))) ∧
  (∀ s : State, s.mgmtRead 0x000 = s.pkgcfg.toNat ∧ s.mgmtRead 0x008 = s.pslstat.toNat ∧ s.mgmtRead 0x010 = s.lattol.toNat ∧
    s.mgmtRead 0x020 = s.hwin.toNat ∧ s.mgmtRead 0x028 = s.bootstat.toNat ∧ s.mgmtRead 0x030 = s.removed.toNat)

/-- BAR2 (R437, R438, R444): each read, write and AtomicOp performs at the memory its window names, with its completion, and a write or an AtomicOp changes exactly
the bytes it names; one without backing is completed as unsupported or dropped, and uncorrectable bytes are delivered marked (log 35). Host
accesses are stamped from the sector's clock (log 58); AtomicOps are aligned (log 40). -/
def Sys2Proof.HostPortEvents : Prop :=
  (∀ s : State, s.woken.windowAt s.turn.addr s.turn.size = none →
    exec .hostBar2Read s = .next (s.woken.complete false 0).clearSkip ∧ exec .hostBar2Write s = .next s.woken) ∧
  (∀ s : State, ∀ pa o, s.woken.windowAt s.turn.addr s.turn.size = some pa →
    s.woken.agentGet (portAgent pa portalHash) (s.woken.clockAt pa s.turn.size) pa s.turn.size = .ok o →
    exec .hostBar2Read s = .next (s.woken.answerPort o s.turn.size).clearSkip ∧
    (o.bad = 0 → s.woken.answerPort o s.turn.size = o.s.complete true o.value)) ∧
  (∀ s : State, ∀ pa t c, s.woken.windowAt s.turn.addr s.turn.size = some pa →
    s.woken.agentPut (portAgent pa portalHash) (s.woken.clockAt pa s.turn.size) pa s.turn.size s.turn.value = .ok (t, c) →
    exec .hostBar2Write s = .next t.clearSkip) ∧
  (∀ s : State, ∀ pa, let n := s.turn.size
    s.woken.windowAt s.turn.addr n = some pa → (∀ p, pa ≤ p → p < pa + n → s.woken.isHbm p = true ∧ (s.woken.owner p).isSome = true) →
    (∃ t, exec .hostBar2Write s = .next t ∧ t.read pa n = s.turn.value % 256 ^ n ∧ ∀ a, a < pa ∨ pa + n ≤ a → t.read a 1 = s.read a 1) ∧
    ((∀ x ∈ s.poison, 32 * x + 32 ≤ pa ∨ pa + n ≤ 32 * x) →
      ∃ t, exec .hostBar2Read s = .next t ∧ t.mem = s.mem ∧ t.outbox = some ⟨true, s.read pa n, false⟩)) ∧
  (∀ s : State, ∀ pa, let n := s.turn.size
    let old := s.read pa n
    s.turn.flag = false → (n = 4 ∨ n = 8 ∨ (n = 16 ∧ s.turn.hostOp = .cas)) → s.turn.addr % n = 0 →
    s.woken.windowAt s.turn.addr n = some pa → (∀ p, pa ≤ p → p < pa + n → s.woken.isHbm p = true) → s.woken.poisoned pa n = false →
    ∃ t, exec .hostAtomicop s = .next t ∧ t.outbox = some ⟨true, old, false⟩ ∧
      t.read pa n = (match s.turn.hostOp with
        | .fetchAdd => old + s.turn.value | .swap => s.turn.value | .cas => if old = s.turn.value2 then s.turn.value else old) % 256 ^ n ∧
      ∀ a, a < pa ∨ pa + n ≤ a → t.read a 1 = s.read a 1) ∧
  (∀ s : State, (s.turn.flag = true ∨ hostTakes s.turn.hostOp s.turn.size = false ∨ s.turn.addr % s.turn.size ≠ 0 ∨
      s.woken.windowAt s.turn.addr s.turn.size = none) → exec .hostAtomicop s = .next (s.woken.complete false 0).clearSkip)

/-- Peers, power and start-up (R441, R442, R446 to R449): a peer's request performs or is refused, a port goes down and with the last one what waits for a port translates
anew, the package enters the deepest state whose conditions hold and wakes, start-up ends in READY or recovery with the failing clusters removed,
and firmware reloaded in recovery resets the function, memory apart, and the start that authenticates it has an empty journal. The model's
choices: a peer's fibre and clock come with the event (log 29), what a package does to permits and commits here (log 82), how a start goes on and
how states change (log 58). -/
def Sys2Proof.PackageEvents : Prop :=
  (∀ s : State, s.turn.peerOp ≠ .commit → s.woken.peerMay s.turn.addr s.turn.size = false →
    exec .peerRequest s = .next (s.woken.complete false 0).clearSkip) ∧
  (∀ s : State, ∀ o, s.woken.peerMay s.turn.addr s.turn.size = true → s.turn.peerOp = .read →
    s.woken.agentGet (portAgent s.turn.addr (hashOf s.turn.unit)) (s.turn.item % 2 ^ 40) s.turn.addr s.turn.size = .ok o →
    exec .peerRequest s = .next (s.woken.answerPort o s.turn.size).clearSkip ∧
    (o.bad = 0 → s.woken.answerPort o s.turn.size = o.s.complete true o.value)) ∧
  (∀ s : State, ∀ t c, s.woken.peerMay s.turn.addr s.turn.size = true → s.turn.peerOp = .write →
    s.woken.agentPut (portAgent s.turn.addr (hashOf s.turn.unit)) (s.turn.item % 2 ^ 40) s.turn.addr s.turn.size s.turn.value = .ok (t, c) →
    exec .peerRequest s = .next (t.complete true 0).clearSkip) ∧
  (∀ s : State, s.turn.peerOp = .pacq → s.turn.size = 8 → s.turn.addr % 8 = 0 → s.woken.peerMay s.turn.addr 8 = true →
    s.woken.poisoned s.turn.addr 8 = false → (s.woken.permitAt s.turn.addr).held = false →
    ∃ t, exec .peerRequest s = .next t ∧ t.outbox = some ⟨true, 0, false⟩ ∧ (t.permitAt s.turn.addr).held = true ∧
      (t.permitAt s.turn.addr).holder = s.turn.unit) ∧
  (∀ s : State, s.turn.peerOp = .commit → (∀ e ∈ s.turn.reads ++ s.turn.writes, e.pa % 32 = 0 ∧ s.woken.peerMay e.pa 32 = true) →
    (∃ e ∈ s.turn.reads, s.woken.pread e.pa 32 ≠ e.bytes) → exec .peerRequest s = .next (s.woken.complete false 0).clearSkip) ∧
  (∀ s : State, s.pslstat.toNat.testBit s.turn.unit = true → s.turn.unit < 18 → ∃ t, exec .pslPortDown s = .next t ∧
    t.pslstat.getLsbD s.turn.unit = false ∧ (∀ i, i ≠ s.turn.unit → t.pslstat.getLsbD i = s.pslstat.getLsbD i) ∧
    ((∀ i, i < 18 → t.pslstat.getLsbD i = false) → ∀ a ∈ t.accesses, s.isPeer a.pa = true → a.queued = false → a.stage ≠ .ready ∧ a.stage ≠ .granted)) ∧
  (∀ s : State, s.turn.unit = s.deepest → s.turn.unit ≠ s.power →
    exec .powerStateChange s = .next (s.enterPower s.turn.unit).clearSkip ∧ (s.enterPower s.turn.unit).power = s.turn.unit) ∧
  (∀ s : State, (s.turn.wake = .inbound ∨ s.turn.wake = .lattol) → s.power ≠ 0 →
    ∃ t, exec .wakeEvent s = .next t ∧ t.power = 0 ∧ t.mem = s.mem) ∧
  (∀ s : State, s.isReady = false → s.inRecovery = false → s.turn.boot.stepsFailed = 0 →
    ∃ t, exec .startup s = .next t ∧ t.isReady = true ∧ t.inRecovery = false ∧ t.mem = s.mem ∧
      t.hostAtomics = s.turn.boot.atomicSizes ∧ t.pslstat = BitVec.ofNat 64 s.turn.boot.portsUp.toNat ∧
      (∀ c, c < 40 → t.removed.getLsbD c =
        ((decide (c / 10 ≠ 0) && s.turn.boot.diesFailed.getLsbD (c / 10)) || s.turn.boot.clustersFailed.getLsbD c)) ∧
      (s.journal.fresh = true → bits t.bootstat.toNat 63 48 = 1 ∧ bits t.bootstat.toNat 47 40 = 0xFF ∧ t.journal.failed = [])) ∧
  (∀ s : State, s.isReady = false → s.inRecovery = false → s.turn.boot.stepsFailed.getLsbD 0 = true →
    ∃ t, exec .startup s = .next t ∧ t.isReady = false ∧ t.inRecovery = true) ∧
  (∀ s : State, s.inRecovery = true → ∃ t, exec .firmwareReload s = .next t ∧ t.mem = s.mem ∧ t.clk = s.clk ∧
    t.journal = { s.journal with fresh := true } ∧ t.bootstat = State.reset.bootstat ∧ t.pkgcfg = State.reset.pkgcfg ∧ t.cores = [] ∧
    t.inRecovery = false) ∧
  (∀ s : State, s.inRecovery = false → exec .firmwareReload s = .next s)

/-- How an instruction comes to issue (R51, R79, R83, R85, R132, R412): a pipeline chooses a group and the set that is its turn, and that set stands in the latch; one without a function
unit chooses no set whose instruction needs one, and a clk grants two; a lane takes the pending event that stands first in the order and leaves the latch; a line
dropped is remembered. The order of a lane's pending events is the dense-fallback trap (16), MCHECK (23), UNCORR (19), MMEXC (18), SERVICE (14), BUDGET (21)
and DEADLOCK (9); others come after them (log 22). The model's choices: what counts as one clk's selections (log 1), ties (log 66), and that a
set which cannot issue spends nothing (log 78). -/
def Obligations.SelectionAndEvents : Prop :=
  (∀ s : State,
    let t := s.grantFus s.turn.unit s.turn.item
    let granted := (t.core s.turn.unit).fuGranted.contains s.turn.item
    let pick := t.candidate s.turn.unit s.turn.item fun x ls => granted || !t.nextIsFnu s.turn.unit x ls
    ((s.core s.turn.unit).fuClk ≠ some s.clk → (t.core s.turn.unit).fuGranted.length ≤ 2) ∧
    (pick = none → exec .issueSelect s = .next t) ∧
    (∀ x forced ls, pick = some (x, forced, ls) →
      (granted = false → t.nextIsFnu s.turn.unit x ls = false) ∧ x.pipe = s.turn.item ∧ ls ≠ [] ∧
      ∃ u i, exec .issueSelect s = .next u ∧ u.cur = some i ∧ i.core = s.turn.unit ∧ i.gid = x.gid ∧ i.lanes = maskOf ls ∧ u.mem = s.mem ∧
        let grown := ((t.core s.turn.unit).settleCredits t.clk).credits
        (forced = none → i.credits = grown) ∧
        ∀ j, forced = some j → x.slot = j ∧ grown.find? (4 * s.turn.item + j) = some 64 ∧ i.credits = grown.put (4 * s.turn.item + j) 0)) ∧
  (∀ s : State, ∀ e, let k := (s.group s.turn.unit s.turn.item).lane s.turn.sub
    let t := s.onLane s.turn.unit s.turn.item s.turn.sub fun k => { k with pend := dropFirst e k.pend }
    k.firstPending = some e →
    (e.kind = 16 → k.wait.isReply = true → exec .asyncEventTake s = .next s) ∧
    (e.kind = 21 → k.mode ≠ .u → exec .asyncEventTake s = .next t) ∧
    ((e.kind = 16 → k.wait.isReply = false) → (e.kind = 21 → k.mode = .u) →
      exec .asyncEventTake s = .next (((t.enterTrap s.turn.unit s.turn.item s.turn.sub
        ⟨e.kind, e.cause, e.pc.getD k.pc, e.tval, e.tinfo, e.access⟩).unlatchLane s.turn.unit s.turn.item s.turn.sub).clearSkip))) ∧
  (∀ s : State, exec .lineRefetch s = .next { s with cur := s.cur.map fun i => { i with refetched := true } }) ∧
  (∀ (k : Lane) (e : Pending), k.firstPending = some e → e ∈ k.pend ∧ ∀ q ∈ k.pend, pendRank e.kind ≤ pendRank q.kind) ∧
  ([16, 23, 19, 18, 14, 21, 9].map pendRank).Pairwise (· < ·) ∧
  (∀ n, n ∉ [16, 23, 19, 18, 14, 21, 9] → ∀ m ∈ [16, 23, 19, 18, 14, 21, 9], pendRank m < pendRank n) ∧
  (∀ (k : Lane) (e : Pending), e ∈ k.pend → e.kind = 16 → (k.firstPending.map fun q => q.kind) = some 16)

/-- Privilege (R69, R88, R421, R423, R425, R429): an instruction of S and H mode in U mode, an instruction of H mode below it, and a mask of S mode named in U mode take the privilege fault in
every lane of the set, whatever their operands hold; so do a read or write of a privileged register that the mode may not make (R417, R418), and the
physical forms of copies in U mode (R351); nothing else happens. -/
def Sys2Proof.PrivilegeFaults : Prop :=
  let traps (ok : State → Ctx → Prop) (i : Instr) (masks : List (Fin 16)) (uses : List Use) : Prop :=
    ∀ s c, s.ctx? = some c → ok s c → uses.any Use.illegal = false → (∀ m ∈ masks, m.val < 12) →
      uses.any (Use.outside (s.grp c).winsize) = false → exec i s = .next ((s.trapSet c 8).finish c)
  let user (_ : State) (c : Ctx) : Prop := c.mode = .u
  let below (_ : State) (c : Ctx) : Prop := c.mode ≠ .h
  let onlyH := [1, 21, 22, 23, 25, 26, 27, 28, 29, 44, 45, 46, 47, 97, 98, 103, 105, 112, 113, 114, 115, 116, 117, 118, 119]
  (∀ f : FI, let n := f.imm.toNat
    traps user (.hcall f) [] [] ∧ traps user (.rdpr f) [] [dstW (prWide n) f.d] ∧
    traps user (.wrpr f) [] [srcW (prWide n) f.a] ∧ traps user (.wrprX f) [] [srcW (prWide n) f.a, dstW (prWide n) f.d] ∧
    traps (fun _ c => c.mode = .s ∧ (n = 25 ∨ n = 26)) (.rdpr f) [] [dstW (prWide n) f.d] ∧
    (n ∈ [20, 64, 96, 100, 104] → traps (fun _ _ => True) (.wrpr f) [] [srcW (prWide n) f.a] ∧
      traps (fun _ _ => True) (.wrprX f) [] [srcW (prWide n) f.a, dstW (prWide n) f.d]) ∧
    traps (fun _ c => c.mode = .s ∧ n ∈ onlyH) (.wrpr f) [] [srcW (prWide n) f.a] ∧
    traps (fun _ c => c.mode = .s ∧ n ∈ onlyH) (.wrprX f) []
      [srcW (prWide n) f.a, dstW (prWide n) f.d] ∧
    traps (fun _ c => c.mode = .s ∧ ((16 ≤ n ∧ n ≤ 19) ∨ (32 ≤ n ∧ n ≤ 47)) ∧ n % 4 ≠ c.slot) (.rdpr f) [] [dstW (prWide n) f.d] ∧
    traps (fun _ c => c.mode = .s ∧ ((16 ≤ n ∧ n ≤ 19) ∨ (32 ≤ n ∧ n ≤ 47)) ∧ n % 4 ≠ c.slot) (.wrpr f) [] [srcW (prWide n) f.a] ∧
    traps (fun _ c => c.mode = .s ∧ ((16 ≤ n ∧ n ≤ 19) ∨ (32 ≤ n ∧ n ≤ 47)) ∧ n % 4 ≠ c.slot) (.wrprX f) []
      [srcW (prWide n) f.a, dstW (prWide n) f.d] ∧
    (n ∈ [24, 99, 101, 102] → let locked (s : State) (c : Ctx) : Prop := c.mode = .s ∧ (s.core c.core).hctl.getLsbD 0 = true
      traps locked (.wrpr f) [] [srcW (prWide n) f.a] ∧ traps locked (.wrprX f) [] [srcW (prWide n) f.a, dstW (prWide n) f.d]) ∧
    traps user (.svcfgBudget f) [] [src32 f.a] ∧
    traps user (.ridgePause f) [] [dst32 f.d] ∧ traps user (.ridgeResume f) [] [dst32 f.d] ∧ traps user (.ridgeSync f) [] [dst32 f.d] ∧
    traps below (.freezeRegion f) [] [] ∧ traps below (.freezeThaw f) [] [] ∧ traps below (.freezeSlot f) [] [] ∧
    traps below (.freezeSlotthaw f) [] []) ∧
  (∀ f : F3, traps user (.opbind f) [] [dst32 f.d, src64 f.a, src32 f.b] ∧ traps user (.opunbind f) [] [dst32 f.d, src32 f.b] ∧
    traps user (.opunbindClose f) [] [dst32 f.d, src32 f.b] ∧ traps user (.pgdone f) [] [dst32 f.d, src64 f.a] ∧
    traps user (.pgdoneDeny f) [] [dst32 f.d, src64 f.a] ∧ traps user (.cproj f) [] [src64 f.a, src32 f.b, src32 f.c] ∧
    traps user (.seqadm f) [] [dst32 f.d, src64 f.a] ∧ traps user (.seqadmRel f) [] [dst32 f.d, src32 f.a] ∧
    traps user (.seqadmInfo f) [] [dst64 f.d, src32 f.a] ∧ traps user (.seqsteal f) [] [dst32 f.d, src32 f.a] ∧
    traps user (.tkfwdId f) [] [src64 f.d, src32 f.a, src32 f.b] ∧ traps user (.tkdoneId f) [] [src32 f.a, src32 f.b] ∧
    traps user (.tkdoneEndId f) [] [src32 f.a, src32 f.b] ∧ traps below (.ctxsv f) [] [dst32 f.d, src64 f.a, src64 f.b] ∧
    traps below (.ctxld f) [] [dst32 f.d, src64 f.a, src64 f.b] ∧
    (f.md.getLsbD 2 = true →
      traps user (.xcopy f) [] [srcW (!f.md.getLsbD 0) f.d, srcW (!f.md.getLsbD 1) f.a, src32 f.b, tagUse f.c] ∧
      traps user (.xfill f) [] [src64 f.d, srcW (f.md.getLsbD 0) f.a, src32 f.b, tagUse f.c])) ∧
  (∀ f : FM, traps user (.tlbinvVa f) [] [src64 f.a, src32 f.b] ∧ traps user (.tlbinvAsid f) [] [src32 f.c] ∧
    traps below (.tlbinvVmid f) [] [src32 f.c] ∧ traps user (.tlbinvAll f) [] [] ∧
    traps user (.pghintPin f) [] [dst32 f.d, src64 f.a, src32 f.b, src32 f.c] ∧ traps user (.pghintUnpin f) [] [dst32 f.d, src64 f.a, src32 f.b, src32 f.c]) ∧
  (∀ f : FK, traps user (.haltgStop f) [] [dst32 f.d, src32 f.a] ∧ traps user (.haltgGo f) [] [dst32 f.d, src32 f.a] ∧
    traps user (.haltgKill f) [] [dst32 f.d, src32 f.a] ∧ traps user (.haltgQuery f) [] [dst64 f.d, src32 f.a] ∧
    (∀ s c, s.ctx? = some c → c.mode = .u → (s.replayUse f).illegal = false → Use.outside (s.grp c).winsize (s.replayUse f) = false →
      exec (.replayData f) s = .next ((s.trapSet c 8).finish c)) ∧
    traps (fun _ c => c.mode = .u ∧ 10 ≤ f.mask.val) (.join f) [f.mask] [] ∧
    traps (fun _ c => c.mode = .u ∧ 10 ≤ f.mask.val) (.waitm f) [f.mask] []) ∧
  traps user .sret [] [] ∧ traps below .hret [] [] ∧ traps user .replayRetry [] [] ∧ traps user .replayOp [] [] ∧
  traps user .svcfgNoidem [] []

/-- Operand checks come first (R69): an operand that the field does not admit or a mask above 11 gives the illegal-operand trap in every lane of the set, and with legal fields a register beyond the window
gives the window trap, in any mode; nothing else happens. -/
def Sys2Proof.OperandFaults : Prop :=
  let checks (i : Instr) (masks : List (Fin 16)) (uses : List Use) : Prop := ∀ s c, s.ctx? = some c →
    (uses.any Use.illegal = true ∨ (∃ m ∈ masks, 12 ≤ m.val) → exec i s = .next ((s.trapSet c 6).finish c)) ∧
    (uses.any Use.illegal = false → (∀ m ∈ masks, m.val < 12) → uses.any (Use.outside (s.grp c).winsize) = true →
      exec i s = .next ((s.trapSet c 7).finish c))
  (∀ f : F3, let w := (intTy f.ty).wide
    checks (.iadd f) [] [dstW w f.d, srcW w f.a, srcW w f.b] ∧ checks (.fadd f) [] [dst32 f.d, src32 f.a, src32 f.b] ∧
    checks (.xcopy f) [] [srcW (!f.md.getLsbD 0) f.d, srcW (!f.md.getLsbD 1) f.a, src32 f.b, tagUse f.c] ∧
    checks (.tkpark f) [] [src32 f.a, src32 f.b] ∧ checks (.kvmap f) [] [dst64 f.d, src64 f.a] ∧
    checks (.seqadm f) [] [dst32 f.d, src64 f.a] ∧ checks (.ctxsv f) [] [dst32 f.d, src64 f.a, src64 f.b]) ∧
  (∀ f : FM, let n := Machine.sizeOf f.sz
    checks (.ldg f) [] [dstData f.d n, src64 f.a, src32 f.b] ∧ checks (.lds f) [] [dstData f.d n, src64 f.a, src32 f.b]) ∧
  (∀ f : FK, checks (.join f) [f.mask] [] ∧ checks (.waitm f) [f.mask] [] ∧ checks (.msetOr f) [f.mask, f.mask2] [src32 f.a])

/-- A step runs the decoded instruction (R48 to R54, R69): the latched set's line is fetched, its slot's word decodes to an instruction, and the step is that instruction under its predicate, once the checks
before it pass (among them the parity of both slots of a pair, and the check of a fibre's first issue, which is then over for the set's lanes, R50); a word that does not decode
gives the illegal-instruction trap. A set that enters a trap through a page whose translation must wait stalls instead (State.heldEntry, R283), and after every
step a power state whose condition has ceased to hold is left (`watched`, log 1). The parity of both slots of a pair before its first issues is
log 23, how long the check of a first issue lasts log 60. -/
def Obligations.StepRunsTheDecodedInstruction : Prop :=
  ∀ (s t : State) (i : Issue) (c : Ctx) (pa : Nat),
    s.cur = some i → s.asyncLane i = none → s.ctx? = some c → s.ckptHalted c = [] → pcLegal c.pc = true →
    s.pageWaits c.core c.slot (lineOf c.pc) = false → s.fetch c = .ok (t, pa) →
    let line := t.pread pa 64
    let slot := slotOf c.pc
    let w := BitVec.ofNat 96 (slotWord line slot)
    let pair := !i.second && decide (slot < 4) && bit (line % 2 ^ 32) (5 + slot)
    lineReserved (line % 2 ^ 32) = false → parityOk (line % 2 ^ 32) slot (slotWord line slot) = true → t.poisoned pa 64 = false →
    (∀ l ∈ c.set, ((t.grp c).lane l).startCheck = true → bit (line % 2 ^ 32) slot = true) →
    (pair = true → parityOk (line % 2 ^ 32) (slot + 1) (slotWord line (slot + 1)) = true ∧ templateFails line slot = false) →
    (∀ g ins, decode w = .ok (g, ins) → step s = watched s (s.heldEntry i (exec ins { t.started c with cur := some { i with pair := pair, guard := g } }))) ∧
    (∀ e, decode w = .error e → step s = watched s (s.heldEntry i (.next (t.checkTrap c c.set 5 0)))) ∧
    (∀ u, s.entryWaits u i.core i.gid = false → s.heldEntry i (.next u) = .next u) ∧
    (∀ u, u.power = 0 → ∃ v, watched s (.next u) = .next v ∧ v = { u with noRider := v.noRider })

/-- With no set in the latch the step is the event that the schedule names next, at its clk, and a schedule entry that is no event, or that recovery does not let happen (R449), is passed over (log 1). Before an ISSUE_SELECT
the sets that could not issue are passed over (R83, R132). -/
def Obligations.StepRunsTheNextEvent : Prop :=
  ∀ (s : State) (e : Turn) (rest : List Turn), s.cur = none → s.sched = e :: rest →
    let t := { ({ s with sched := rest } : State).passTime e.after with turn := e.args }
    (e.event.isEvent = true → t.mayHappen e.event = true → step s = watched s (exec e.event (t.beforeEvent runLatch e.event))) ∧
    (e.event ≠ .issueSelect → t.beforeEvent runLatch e.event = t) ∧
    (e.event.isEvent = false ∨ t.mayHappen e.event = false → step s = watched s (.next t))

/-- After every step, from every state, the package's power state is no deeper than its conditions allow (R446). -/
def Obligations.PowerStateIsAllowed : Prop := ∀ s t : State, step s = .next t → t.power ≤ t.deepest

/-- Every step keeps the one form of memory in which equal memories are equal data: addresses rise and no zero byte is listed. The form is
the model's (log 4). -/
def Obligations.MemoryStaysCanonical : Prop :=
  ∀ s t : State, Memory.wf s.mem = true → step s = .next t → Memory.wf t.mem = true

/-- A register has no bit set outside a mask. -/
def Sys2Proof.Within (w : Long) (mask : Nat) : Prop := w.toNat &&& mask = w.toNat

/-- The bits that SPMAP has (R157): a base and a size of 7 bits for each slot. -/
def Sys2Proof.spmapBits : Nat := ones 62 56 + ones 54 48 + ones 46 40 + ones 38 32 + ones 30 24 + ones 22 16 + ones 14 8 + ones 6 0

/-- No bit is set that a register does not have (R78, R157, R164, R230, R247, R255, R262, R278, R311, R338, R355, R403, R418, R431, R435, R441,
R445, R449): in the registers of the package, of a core and of a die, and in a write of SPMAP or ACCOWN that is under way. -/
structure Sys2Proof.ReservedZero (s : State) : Prop where
  package : Within s.pkgcfg (ones 63 56 + ones 49 40 + 1) ∧ Within s.pslstat (ones 17 0) ∧ Within s.lattol (ones 42 40 + ones 31 0) ∧
    Within s.hwin (ones 51 36) ∧ Within s.bootstat (ones 63 40 + ones 1 0) ∧ Within s.removed (ones 39 0)
  cores : ∀ n, Within (s.core n).spmap spmapBits ∧ (∀ p, (s.core n).spmapNew = some p → Within p.1 spmapBits) ∧
    Within (s.core n).accown (ones 11 0) ∧ (∀ p, (s.core n).accownNew = some p → Within p.1 (ones 11 0)) ∧
    Within (s.core n).racectl (ones 63 32 + ones 7 0) ∧ Within (s.core n).txcfg (ones 3 0) ∧ Within (s.core n).hvec (ones 52 11) ∧
    Within (s.core n).hctl 1 ∧ Within (s.core n).ckptcfg (ones 51 8 + ones 3 1) ∧ Within (s.core n).ckptstop (ones 39 0)
  slots : ∀ n, (∀ w ∈ (s.core n).slotcfg, Within w (ones 36 32 + ones 20 16 + ones 3 0)) ∧ (∀ w ∈ (s.core n).svec, Within w (ones 52 11)) ∧
    (∀ w ∈ (s.core n).tarea, Within w (ones 51 18 + 1)) ∧ (∀ w ∈ (s.core n).ptroot, Within w (ones 51 13 + ones 11 0)) ∧
    (∀ w ∈ (s.core n).vmroot, Within w (ones 51 0))
  dies : ∀ n, Within (s.die n).stallcfg (ones 63 12 + 1) ∧ Within (s.die n).ridge.cfg (ones 63 48 + ones 37 32 + ones 14 8) ∧
    Within (s.die n).adpcfg (ones 52 12 + ones 1 0) ∧ Within (s.die n).fqbase (ones 51 19 + 1) ∧
    Within (s.die n).fqptr (ones 44 32 + ones 12 0) ∧ Within (s.die n).kvdir (ones 51 19 + 1) ∧ Within (s.die n).scancfg (ones 51 27 + 1)

/-- Reserved bits stay zero (R4): no step, of an instruction or of an event, sets a bit that its register does not have. -/
def Obligations.ReservedBitsStayZero : Prop := ∀ s t : State, ReservedZero s → step s = .next t → ReservedZero t

/-- Reset (R78, R157, R164, R220, R247, R338, R435, R445, R449): the values that the spec gives; the package is in power state 0, and no core, cluster or die holds a group, a record, a request or a
translation. -/
def Obligations.ResetValues : Prop :=
  let s := State.reset
  s.pkgcfg = 0x0100000000000000 ∧ s.lattol = 0 ∧ s.hwin = 0 ∧ s.bootstat = 0x0000FF0000000000 ∧ s.pslstat = 0 ∧
  s.power = 0 ∧ s.power ≤ s.deepest ∧ s.isReady = false ∧ s.inRecovery = false ∧ s.mem = [] ∧ Memory.wf s.mem = true ∧
  (∀ n, (s.core n).groups = [] ∧ (s.core n).spmap = 0x6000 ∧ (s.core n).accown = 0xF00 ∧ (s.core n).txcfg = 4 ∧
    (s.core n).slotcfg = List.replicate 4 0x1800010000 ∧ (s.core n).queue = [] ∧ (s.core n).tlb = []) ∧
  (∀ n, (s.die n).ridge.cfg = 0x0100001000005A00 ∧ (s.die n).tenq = List.replicate 8 0x0101010101010101 ∧
    (s.die n).recs = [] ∧ (s.die n).ops = [] ∧ (s.die n).engine = [] ∧ (s.die n).adpcfg = 0) ∧ ReservedZero s

/-- The words that the spec writes out decode to what it says they are (R54 to R60, R62): JOIN M3, IADD.SI32, FFMA.FP32.RZ, LDS.B4, TMMA, RHDR.TAG, LDG.ACQ.CLUSTER.B8, a TKFWD under P4, SYSC 0x21; a word of an
unassigned opcode and one with a must-be-zero bit set do not decode. -/
def Obligations.SpecWordsDecode : Prop :=
  let pt : Guard := ⟨false, 15⟩
  decode 0x05007983FFFFFFF000000000#96 = .ok (pt, .join ⟨3, 0, .none, .none, .none, 0⟩) ∧
  decode 0x230078000500F86FFFC00000#96 = .ok (pt, .iadd ⟨0, 0, 0, 0, .v 5, .v 3, .const 134, .none, none⟩) ∧
  decode 0x530078400A0100501BC00000#96 = .ok (pt, .ffma ⟨0, 0, 1, 0, .v 10, .v 4, .v 5, .v 6, none⟩) ∧
  decode 0x80007A0005A0803FFC000040#96 = .ok (pt, .lds ⟨0, 2, 0, 0, 0, .v 5, .s 2, .v 3, .none, 0x40⟩) ∧
  decode 0x9200784E84FFC52B08000000#96 = .ok (pt, .tmma ⟨0, 0, 1, 3, .s 4, .none, 5, 2, .ct 2⟩) ∧
  decode 0xA00178000700BFFFFFC00000#96 = .ok (pt, .rhdr ⟨1, 0, 0, 0, .v 7, .v 2, .none, .none, none⟩) ∧
  decode 0xB0007B2406A100AFFC000040#96 = .ok (pt, .ldg ⟨0, 3, 0, 2, 1, .v 6, .s 4, .v 10, .none, 0x40⟩) ∧
  decode 0xA1002003FF00381FFFC00000#96 = .ok (⟨false, 4⟩, .tkfwd ⟨0, 0, 0, 0, .none, .v 0, .const 129, .none, none⟩) ∧
  decode 0xF0007803FFFFFC0000000021#96 = .ok (pt, .sysc ⟨0, 0, 0, 0, .none, .none, none, 0x21⟩) ∧
  decode 0xFF007803FFFFFFFFFFC00000#96 = .error .unassignedOpcode ∧
  decode 0x00007803FFFFFFFFFFC00001#96 = .error .mustBeZero

/-- Encoding and decoding agree: every well-formed instruction but an event has a word under every predicate, and that word decodes to the instruction and the predicate. -/
def Obligations.DecodeOfEncode : Prop :=
  ∀ (g : Guard) (i : Instr), i.WellFormed → i.isEvent = false → ∃ w, encode g i = some w ∧ decode w = .ok (g, i)

/-- A word has one meaning: whatever decodes is the word of what it decodes to, and is well formed (R61, R69). -/
def Obligations.EncodeOfDecode : Prop :=
  ∀ (w : BitVec 96) (g : Guard) (i : Instr), decode w = .ok (g, i) → encode g i = some w ∧ i.WellFormed

/-- Memory (R3, R261): n bytes read where they were just written give the value, least significant byte first; a range that does not meet the written one reads as before; a masked write changes exactly the bytes it names;
writing keeps the one form that equal memories share. -/
def Obligations.MemoryLaws : Prop :=
  ∀ (s : State) (a n v k : Nat),
    (s.write a n v).read a n = v % 256 ^ n ∧
    (∀ b m, b + m ≤ a ∨ a + n ≤ b → (s.write a n v).read b m = s.read b m) ∧
    (∀ b, sget (s.writeMasked a n v k).mem b =
      if a ≤ b ∧ b < a + n ∧ k.testBit (b - a) then BitVec.ofNat 8 (v / 256 ^ (b - a)) else sget s.mem b) ∧
    (Memory.wf s.mem = true → Memory.wf (s.write a n v).mem = true ∧ Memory.wf (s.writeMasked a n v k).mem = true)

/-- Integer arithmetic, comparisons, predicate words, votes and mask reads. -/
def Obligations.IntegerPredicateAndVoteResults : Prop := IntegerArithmeticResults ∧ PredicateResults ∧ VoteAndMaskReads

/-- Floating-point arithmetic rounds the exact value once and merges its flags. -/
def Obligations.FloatArithmeticResults : Prop := FloatScalarResults ∧ PackedFloatResults ∧ DotAndLaneReductions

/-- Comparison, classification, conversion, block formats and the function units. -/
def Obligations.FloatConversionAndFunctionResults : Prop := FloatCompareAndConvert ∧ FunctionUnitResults ∧ BlockConversions

/-- NOP, YIELD, YIELD.AGE, NAP and EXIT. -/
def Obligations.PausesAndEnds : Prop := NopAndYield ∧ NapWaits ∧ ExitEndsFibres

/-- JOIN, LEAVE, WAITM, VOTE.MASK and MSET act on masks. -/
def Obligations.MaskInstructions : Prop := MaskEnrolment ∧ WaitmArrives

/-- BARI, ARRIVE, AWAIT, CBAR and KBAR. -/
def Obligations.BarrierInstructions : Prop := ArrivalBarriers ∧ BarrierWaits

/-- The last arrival releases a mask, an arrival word or a barrier. -/
def Obligations.BarrierCompletion : Prop := FullMaskReleasesItsWaiters ∧ ArrivalWordAfterOneArrival ∧ LastArrivalCompletesThePhase

/-- RDSR, WRSR, WGROW and WSHRINK. -/
def Obligations.SpecialRegistersAndWindow : Prop := SpecialRegisterAccess ∧ WindowGrowsAndShrinks

/-- Failing targets, scratchpad addresses, matrix operations and misaligned accesses trap. -/
def Obligations.FailingLanesTrap : Prop := FailingTransfersTrap ∧ ScratchpadTraps ∧ RefusedMatrixOperationsTrap ∧ MisalignedAccessesTrap

/-- LDS, STS, LDSR, STSR and ATOMS, and the frame of STS. -/
def Obligations.ScratchpadAccesses : Prop := ScratchpadLoadsAndStores ∧ StoreToScratchpadFrame

/-- LDA, STA, ZACC, ZACC.ROWS and SFILL. -/
def Obligations.AccumulatorsAndFills : Prop := AccumulatorAccesses ∧ ScratchpadFill

/-- WLOAD, WLOAD.REL, TMMA, ADPT and MSIGN. -/
def Obligations.MatrixOperations : Prop := WeightLoads ∧ MatrixOperationsIssue

/-- LDG, STG, STGM, CCTL, PREF, TLBQ, PGHINT, WAITV and FENCE. -/
def Obligations.GlobalAccesses : Prop := GlobalAccessesIssue ∧ HintsAndQueries ∧ WaitvAndFences

/-- A performed load reads memory and its reply writes the destination register. -/
def Obligations.LoadsDeliverMemory : Prop := PerformedLoadReadsMemory ∧ LoadReplyWritesItsDestination

/-- The events of accesses, naps, barriers, fills, the storage map and the array. -/
def Obligations.MemoryAndCoreEvents : Prop := MemoryEvents ∧ CoreEvents ∧ FaultRecordsReachTheQueue ∧ SweepDropsOldMetadata ∧ BanksFill ∧ ArrayStartsTheOldest ∧ SlicesAccumulate ∧ OperationsComplete

/-- Atomics and permits perform at their service unit. -/
def Obligations.ServiceRequestsPerform : Prop := ServiceUnitPerforms ∧ PermitsAreGrantedAndHandedOver ∧ ServiceUnitEvents

/-- ACP, ACPS, XCOPY, XGATH, XFILL and XMCAST. -/
def Obligations.CopiesIssue : Prop := LaneCopiesIssue ∧ CopyRequestsAreQueued

/-- RHDR, RHDR.FLAGS, TKFWD, TKPARK, TKDONE, TKNEW and the forms by id. -/
def Obligations.TokenInstructions : Prop := TokenRowInstructions ∧ ParkedRecordInstructions

/-- GATEK, XPRED, COLQ, CRSTAT, TSTAT, TSHAPE and XSTAT. -/
def Obligations.GateAndStatusReads : Prop := GateResults ∧ StatusReads

/-- BOARD in its three forms and RIDGE. -/
def Obligations.RidgelineInstructions : Prop := BoardingIsQueued ∧ RidgelineControl

/-- The Ridgeline's steps and the retirement of a group. -/
def Obligations.RidgelineEvents : Prop := RidgelineSteps ∧ BoardingsTakeEffect ∧ PassesOpen

/-- SYSC, HCALL, BRK, SRET and HRET. -/
def Obligations.CallsAndReturns : Prop := CallsTakeTheirTraps ∧ ReturnsRestoreTheLane

/-- RDPR, WRPR and WRPR.X, and the bits that a write sets. -/
def Obligations.PrivilegedRegisters : Prop := PrivilegedRegisterAccess ∧ RegisterWriteBits

/-- HALTG, FREEZE, SVCFG and the expiry of a budget. -/
def Obligations.SupervisorControl : Prop := HaltingGroups ∧ FreezeAndBudget

/-- TLBINV, its switch, PGDONE and REPLAY. -/
def Obligations.TranslationAndPaging : Prop := TranslationShootdown ∧ PagerAnswers

/-- The host port, peers, ports, power states and start-up. -/
def Obligations.HostAndPackageEvents : Prop := HostRegisters ∧ HostPortEvents ∧ PackageEvents

/-- Illegal operands, registers beyond the window and privilege. -/
def Obligations.FaultsOfOperandsAndPrivilege : Prop := OperandFaults ∧ PrivilegeFaults
end

