-- ==== Sys2Proof/Laws/Memory.lean ====
section
/-!
SUPPORT. Maps and memory: a read after a write, what a write leaves, and that every write keeps the canonical form.
-/
namespace Sys2Proof.Machine

/-! ### Maps -/

@[simp] theorem Map.find?_put_self {α : Type} (m : Map α) (k : Nat) (a : α) : (m.put k a).find? k = some a := by
  induction m with
  | nil => simp [Map.put, Map.find?]
  | cons e r ih =>
    obtain ⟨j, b⟩ := e
    unfold Map.put
    split
    · simp [Map.find?]
    · split
      · simp [Map.find?]
      · rename_i h
        simp [Map.find?, ih, Ne.symm h]

theorem Map.find?_put_ne {α : Type} (m : Map α) (k i : Nat) (a : α) (h : i ≠ k) : (m.put k a).find? i = m.find? i := by
  induction m with
  | nil => simp [Map.put, Map.find?, Ne.symm h]
  | cons e r ih =>
    obtain ⟨j, b⟩ := e
    unfold Map.put
    split
    · simp [Map.find?, Ne.symm h]
    · split
      · rename_i h2
        subst h2
        simp [Map.find?, Ne.symm h]
      · simp [Map.find?, ih]

theorem Map.find?_erase {α : Type} (m : Map α) (k i : Nat) : (m.erase k).find? i = if i = k then none else m.find? i := by
  induction m with
  | nil => simp [Map.erase, Map.find?]
  | cons e r ih =>
    obtain ⟨j, b⟩ := e
    unfold Map.erase at ih ⊢
    by_cases hj : j = k
    · subst hj
      by_cases hi : i = j
      · subst hi; simpa using ih
      · simp [Map.find?, Ne.symm hi, hi] at ih ⊢
        exact ih
    · by_cases hi : j = i
      · subst hi; simp [Map.find?, hj]
      · simp [Map.find?, hj, hi] at ih ⊢
        exact ih

/-- A sparse map reads as its entries say, an unlisted key as zero. -/
theorem sget_eq_find? {w : Nat} (m : Map (BitVec w)) (k : Nat) : sget m k = (m.find? k).getD 0#w := by
  induction m with
  | nil => rfl
  | cons e r ih =>
    obtain ⟨j, b⟩ := e
    unfold sget Map.find?
    split <;> simp [ih]

/-- A read after a write to the same key gives the value written. -/
@[simp] theorem sget_sput_self {w : Nat} (m : Map (BitVec w)) (k : Nat) (a : BitVec w) : sget (sput m k a) k = a := by
  unfold sput
  split
  · rename_i h; subst h; simp [sget_eq_find?, Map.find?_erase]
  · simp [sget_eq_find?]

/-- A write leaves every other key as it was. -/
theorem sget_sput_ne {w : Nat} (m : Map (BitVec w)) (k i : Nat) (a : BitVec w) (h : i ≠ k) : sget (sput m k a) i = sget m i := by
  unfold sput
  split
  · simp [sget_eq_find?, Map.find?_erase, h]
  · simp [sget_eq_find?, Map.find?_put_ne m k i a h]

/-! ### The canonical form -/

theorem sparseWf_mono {w : Nat} {m : Map (BitVec w)} {lo hi : Nat} (h : sparseWf hi m = true) (hl : lo ≤ hi) :
    sparseWf lo m = true := by
  cases m with
  | nil => rfl
  | cons e r => simp [sparseWf] at h ⊢; exact ⟨⟨by omega, h.1.2⟩, h.2⟩

theorem sparseWf_erase {w : Nat} {m : Map (BitVec w)} {lo : Nat} (k : Nat) (h : sparseWf lo m = true) :
    sparseWf lo (m.erase k) = true := by
  induction m generalizing lo with
  | nil => exact h
  | cons e r ih =>
    obtain ⟨j, b⟩ := e
    simp [sparseWf] at h
    have ih := ih h.2
    unfold Map.erase at ih ⊢
    by_cases hj : j = k
    · simp [hj] at ih ⊢
      exact sparseWf_mono ih (by omega)
    · simp [hj, sparseWf, h.1, ih]

theorem sparseWf_put {w : Nat} {m : Map (BitVec w)} {lo k : Nat} {a : BitVec w} (ha : a ≠ 0#w) (hk : lo ≤ k)
    (h : sparseWf lo m = true) : sparseWf lo (m.put k a) = true := by
  induction m generalizing lo with
  | nil => simp [Map.put, sparseWf, ha, hk]
  | cons e r ih =>
    obtain ⟨j, b⟩ := e
    simp [sparseWf] at h
    unfold Map.put
    split
    · simp [sparseWf, ha, hk, h.1.2, h.2]; omega
    · split
      · rename_i h2; subst h2; simp [sparseWf, ha, hk, h.2]
      · simp [sparseWf, h.1.1, h.1.2]; exact ih (by omega) h.2

/-- A write keeps the canonical form. -/
theorem sparseWf_sput {w : Nat} {m : Map (BitVec w)} {lo k : Nat} (a : BitVec w) (hk : lo ≤ k) (h : sparseWf lo m = true) :
    sparseWf lo (sput m k a) = true := by
  unfold sput
  split
  · exact sparseWf_erase k h
  · rename_i ha; exact sparseWf_put ha hk h

theorem sparseWf_filter {w : Nat} {m : Map (BitVec w)} {lo : Nat} (p : Nat × BitVec w → Bool) (h : sparseWf lo m = true) :
    sparseWf lo (m.filter p) = true := by
  induction m generalizing lo with
  | nil => exact h
  | cons e r ih =>
    obtain ⟨j, b⟩ := e
    simp [sparseWf] at h
    have ih := ih h.2
    by_cases hp : p (j, b) = true
    · simp [hp, sparseWf, h.1, ih]
    · simp [hp]; exact sparseWf_mono ih (by omega)

/-! ### Main memory -/

theorem Memory.wf_putBytes {m : List (Nat × BitVec 8)} (a n v : Nat) (h : Memory.wf m = true) :
    Memory.wf (putBytes m a n v) = true := by
  induction n generalizing m a v with
  | zero => exact h
  | succ n ih => exact ih _ _ (sparseWf_sput _ (Nat.zero_le _) h)

theorem Memory.wf_putMasked {m : List (Nat × BitVec 8)} (a n v k : Nat) (h : Memory.wf m = true) :
    Memory.wf (putMasked m a n v k) = true := by
  induction n generalizing m a v k with
  | zero => exact h
  | succ n ih =>
    unfold putMasked
    apply ih
    split
    · exact sparseWf_sput _ (Nat.zero_le _) h
    · exact h

/-- A store keeps the canonical form. -/
theorem State.write_wf {s : State} (a n v : Nat) (h : Memory.wf s.mem = true) : Memory.wf (s.write a n v).mem = true :=
  Memory.wf_putBytes a n v h

/-- A masked store keeps the canonical form. -/
theorem State.writeMasked_wf {s : State} (a n v k : Nat) (h : Memory.wf s.mem = true) :
    Memory.wf (s.writeMasked a n v k).mem = true :=
  Memory.wf_putMasked a n v k h

/-- A store leaves every byte outside it. -/
theorem sget_putBytes_outside (m : List (Nat × BitVec 8)) (a n v b : Nat) (h : b < a ∨ a + n ≤ b) :
    sget (putBytes m a n v) b = sget m b := by
  induction n generalizing m a v with
  | zero => rfl
  | succ n ih =>
    unfold putBytes
    rw [ih _ _ _ (by omega), sget_sput_ne _ _ _ _ (by omega)]

/-- A store writes the bytes of its value, the least significant one lowest (R3). -/
theorem sget_putBytes_inside (m : List (Nat × BitVec 8)) (a n v i : Nat) (h : i < n) :
    sget (putBytes m a n v) (a + i) = BitVec.ofNat 8 (v / 256 ^ i) := by
  induction n generalizing m a v i with
  | zero => omega
  | succ n ih =>
    unfold putBytes
    cases i with
    | zero => rw [sget_putBytes_outside _ _ _ _ _ (by omega)]; simp
    | succ i =>
      rw [show a + (i + 1) = (a + 1) + i by omega, ih _ _ _ _ (by omega), Nat.pow_succ, Nat.mul_comm, Nat.div_div_eq_div_mul]

/-- A masked store leaves every byte outside it. -/
theorem sget_putMasked_outside (m : List (Nat × BitVec 8)) (a n v k b : Nat) (h : b < a ∨ a + n ≤ b) :
    sget (putMasked m a n v k) b = sget m b := by
  induction n generalizing m a v k with
  | zero => rfl
  | succ n ih =>
    unfold putMasked
    rw [ih _ _ _ _ (by omega)]
    split
    · exact sget_sput_ne _ _ _ _ (by omega)
    · rfl

/-! ### Cores, clusters, dies and groups in a state -/

@[simp] theorem State.core_setCore_self (s : State) (n : Nat) (k : Core) : (s.setCore n k).core n = k := by
  simp [State.core, State.setCore]
theorem State.core_setCore_ne (s : State) (n i : Nat) (k : Core) (h : i ≠ n) : (s.setCore n k).core i = s.core i := by
  simp [State.core, State.setCore, Map.find?_put_ne _ _ _ _ h]
@[simp] theorem State.core_onCore_self (s : State) (n : Nat) (f : Core → Core) : (s.onCore n f).core n = f (s.core n) := by
  simp [State.onCore]
theorem State.core_onCore_ne (s : State) (n i : Nat) (f : Core → Core) (h : i ≠ n) : (s.onCore n f).core i = s.core i := by
  simp [State.onCore, State.core_setCore_ne _ _ _ _ h]
@[simp] theorem State.die_onDie_self (s : State) (n : Nat) (f : Die → Die) : (s.onDie n f).die n = f (s.die n) := by
  simp [State.die, State.onDie]
theorem State.die_onDie_ne (s : State) (n i : Nat) (f : Die → Die) (h : i ≠ n) : (s.onDie n f).die i = s.die i := by
  simp [State.die, State.onDie, Map.find?_put_ne _ _ _ _ h]
@[simp] theorem State.cluster_onCluster_self (s : State) (n : Nat) (f : Cluster → Cluster) :
    (s.onCluster n f).cluster n = f (s.cluster n) := by
  simp [State.cluster, State.onCluster]
theorem State.cluster_onCluster_ne (s : State) (n i : Nat) (f : Cluster → Cluster) (h : i ≠ n) :
    (s.onCluster n f).cluster i = s.cluster i := by
  simp [State.cluster, State.onCluster, Map.find?_put_ne _ _ _ _ h]
@[simp] theorem State.group?_setGroup_self (s : State) (n g : Nat) (x : Group) : (s.setGroup n g x).group? n g = some x := by
  simp [State.group?, State.setGroup]
theorem State.group?_setGroup_ne (s : State) (n g i j : Nat) (x : Group) (h : (i, j) ≠ (n, g)) :
    (s.setGroup n g x).group? i j = s.group? i j := by
  by_cases hi : i = n
  · subst hi
    have : j ≠ g := fun e => h (by rw [e])
    simp [State.group?, State.setGroup, Map.find?_put_ne _ _ _ _ this]
  · simp [State.group?, State.setGroup, State.core_onCore_ne _ _ _ _ hi]

/-- The resident group changed by a function is that group changed; every other one stays. -/
theorem State.onGroup_of_some {s : State} {n g : Nat} {x : Group} (f : Group → Group) (h : s.group? n g = some x) :
    s.onGroup n g f = s.setGroup n g (f x) := by
  simp [State.onGroup, h]
theorem State.onGroup_of_none {s : State} {n g : Nat} (f : Group → Group) (h : s.group? n g = none) : s.onGroup n g f = s := by
  simp [State.onGroup, h]

end Sys2Proof.Machine
end

