-- ==== Sys2Proof/Laws/State.lean ====
section
/-!
SUPPORT. What each named update of a state, a group or a lane leaves as it was: one lemma for a field and an update.
-/
namespace Sys2Proof.Machine

@[simp] theorem State.setCore_clk (s : State) (n : Nat) (k : Core) : (s.setCore n k).clk = s.clk := rfl
@[simp] theorem State.setCore_free (s : State) (n : Nat) (k : Core) : (s.setCore n k).free = s.free := rfl
@[simp] theorem State.setCore_nextId (s : State) (n : Nat) (k : Core) : (s.setCore n k).nextId = s.nextId := rfl
@[simp] theorem State.setCore_sched (s : State) (n : Nat) (k : Core) : (s.setCore n k).sched = s.sched := rfl
@[simp] theorem State.setCore_turn (s : State) (n : Nat) (k : Core) : (s.setCore n k).turn = s.turn := rfl
@[simp] theorem State.setCore_cur (s : State) (n : Nat) (k : Core) : (s.setCore n k).cur = s.cur := rfl
@[simp] theorem State.setCore_mem (s : State) (n : Nat) (k : Core) : (s.setCore n k).mem = s.mem := rfl
@[simp] theorem State.setCore_rmeta (s : State) (n : Nat) (k : Core) : (s.setCore n k).rmeta = s.rmeta := rfl
@[simp] theorem State.setCore_poison (s : State) (n : Nat) (k : Core) : (s.setCore n k).poison = s.poison := rfl
@[simp] theorem State.setCore_accesses (s : State) (n : Nat) (k : Core) : (s.setCore n k).accesses = s.accesses := rfl
@[simp] theorem State.setCore_awayLocks (s : State) (n : Nat) (k : Core) : (s.setCore n k).awayLocks = s.awayLocks := rfl
@[simp] theorem State.setCore_invals (s : State) (n : Nat) (k : Core) : (s.setCore n k).invals = s.invals := rfl
@[simp] theorem State.setCore_packets (s : State) (n : Nat) (k : Core) : (s.setCore n k).packets = s.packets := rfl
@[simp] theorem State.setCore_clusters (s : State) (n : Nat) (k : Core) : (s.setCore n k).clusters = s.clusters := rfl
@[simp] theorem State.setCore_dies (s : State) (n : Nat) (k : Core) : (s.setCore n k).dies = s.dies := rfl
@[simp] theorem State.setCore_pkgcfg (s : State) (n : Nat) (k : Core) : (s.setCore n k).pkgcfg = s.pkgcfg := rfl
@[simp] theorem State.setCore_pslstat (s : State) (n : Nat) (k : Core) : (s.setCore n k).pslstat = s.pslstat := rfl
@[simp] theorem State.setCore_lattol (s : State) (n : Nat) (k : Core) : (s.setCore n k).lattol = s.lattol := rfl
@[simp] theorem State.setCore_hwin (s : State) (n : Nat) (k : Core) : (s.setCore n k).hwin = s.hwin := rfl
@[simp] theorem State.setCore_bootstat (s : State) (n : Nat) (k : Core) : (s.setCore n k).bootstat = s.bootstat := rfl
@[simp] theorem State.setCore_hostAtomics (s : State) (n : Nat) (k : Core) : (s.setCore n k).hostAtomics = s.hostAtomics := rfl
@[simp] theorem State.setCore_removed (s : State) (n : Nat) (k : Core) : (s.setCore n k).removed = s.removed := rfl
@[simp] theorem State.setCore_msix (s : State) (n : Nat) (k : Core) : (s.setCore n k).msix = s.msix := rfl
@[simp] theorem State.setCore_msixPending (s : State) (n : Nat) (k : Core) : (s.setCore n k).msixPending = s.msixPending := rfl
@[simp] theorem State.setCore_messages (s : State) (n : Nat) (k : Core) : (s.setCore n k).messages = s.messages := rfl
@[simp] theorem State.setCore_journal (s : State) (n : Nat) (k : Core) : (s.setCore n k).journal = s.journal := rfl
@[simp] theorem State.setCore_noRider (s : State) (n : Nat) (k : Core) : (s.setCore n k).noRider = s.noRider := rfl
@[simp] theorem State.setCore_outbox (s : State) (n : Nat) (k : Core) : (s.setCore n k).outbox = s.outbox := rfl

@[simp] theorem State.onCore_clk (s : State) (n : Nat) (f : Core → Core) : (s.onCore n f).clk = s.clk := rfl
@[simp] theorem State.onCore_free (s : State) (n : Nat) (f : Core → Core) : (s.onCore n f).free = s.free := rfl
@[simp] theorem State.onCore_nextId (s : State) (n : Nat) (f : Core → Core) : (s.onCore n f).nextId = s.nextId := rfl
@[simp] theorem State.onCore_sched (s : State) (n : Nat) (f : Core → Core) : (s.onCore n f).sched = s.sched := rfl
@[simp] theorem State.onCore_turn (s : State) (n : Nat) (f : Core → Core) : (s.onCore n f).turn = s.turn := rfl
@[simp] theorem State.onCore_cur (s : State) (n : Nat) (f : Core → Core) : (s.onCore n f).cur = s.cur := rfl
@[simp] theorem State.onCore_mem (s : State) (n : Nat) (f : Core → Core) : (s.onCore n f).mem = s.mem := rfl
@[simp] theorem State.onCore_rmeta (s : State) (n : Nat) (f : Core → Core) : (s.onCore n f).rmeta = s.rmeta := rfl
@[simp] theorem State.onCore_poison (s : State) (n : Nat) (f : Core → Core) : (s.onCore n f).poison = s.poison := rfl
@[simp] theorem State.onCore_accesses (s : State) (n : Nat) (f : Core → Core) : (s.onCore n f).accesses = s.accesses := rfl
@[simp] theorem State.onCore_awayLocks (s : State) (n : Nat) (f : Core → Core) : (s.onCore n f).awayLocks = s.awayLocks := rfl
@[simp] theorem State.onCore_invals (s : State) (n : Nat) (f : Core → Core) : (s.onCore n f).invals = s.invals := rfl
@[simp] theorem State.onCore_packets (s : State) (n : Nat) (f : Core → Core) : (s.onCore n f).packets = s.packets := rfl
@[simp] theorem State.onCore_clusters (s : State) (n : Nat) (f : Core → Core) : (s.onCore n f).clusters = s.clusters := rfl
@[simp] theorem State.onCore_dies (s : State) (n : Nat) (f : Core → Core) : (s.onCore n f).dies = s.dies := rfl
@[simp] theorem State.onCore_pkgcfg (s : State) (n : Nat) (f : Core → Core) : (s.onCore n f).pkgcfg = s.pkgcfg := rfl
@[simp] theorem State.onCore_pslstat (s : State) (n : Nat) (f : Core → Core) : (s.onCore n f).pslstat = s.pslstat := rfl
@[simp] theorem State.onCore_lattol (s : State) (n : Nat) (f : Core → Core) : (s.onCore n f).lattol = s.lattol := rfl
@[simp] theorem State.onCore_hwin (s : State) (n : Nat) (f : Core → Core) : (s.onCore n f).hwin = s.hwin := rfl
@[simp] theorem State.onCore_bootstat (s : State) (n : Nat) (f : Core → Core) : (s.onCore n f).bootstat = s.bootstat := rfl
@[simp] theorem State.onCore_hostAtomics (s : State) (n : Nat) (f : Core → Core) : (s.onCore n f).hostAtomics = s.hostAtomics := rfl
@[simp] theorem State.onCore_removed (s : State) (n : Nat) (f : Core → Core) : (s.onCore n f).removed = s.removed := rfl
@[simp] theorem State.onCore_msix (s : State) (n : Nat) (f : Core → Core) : (s.onCore n f).msix = s.msix := rfl
@[simp] theorem State.onCore_msixPending (s : State) (n : Nat) (f : Core → Core) : (s.onCore n f).msixPending = s.msixPending := rfl
@[simp] theorem State.onCore_messages (s : State) (n : Nat) (f : Core → Core) : (s.onCore n f).messages = s.messages := rfl
@[simp] theorem State.onCore_journal (s : State) (n : Nat) (f : Core → Core) : (s.onCore n f).journal = s.journal := rfl
@[simp] theorem State.onCore_noRider (s : State) (n : Nat) (f : Core → Core) : (s.onCore n f).noRider = s.noRider := rfl
@[simp] theorem State.onCore_outbox (s : State) (n : Nat) (f : Core → Core) : (s.onCore n f).outbox = s.outbox := rfl

@[simp] theorem State.setGroup_clk (s : State) (n g : Nat) (x : Group) : (s.setGroup n g x).clk = s.clk := rfl
@[simp] theorem State.setGroup_free (s : State) (n g : Nat) (x : Group) : (s.setGroup n g x).free = s.free := rfl
@[simp] theorem State.setGroup_nextId (s : State) (n g : Nat) (x : Group) : (s.setGroup n g x).nextId = s.nextId := rfl
@[simp] theorem State.setGroup_sched (s : State) (n g : Nat) (x : Group) : (s.setGroup n g x).sched = s.sched := rfl
@[simp] theorem State.setGroup_turn (s : State) (n g : Nat) (x : Group) : (s.setGroup n g x).turn = s.turn := rfl
@[simp] theorem State.setGroup_cur (s : State) (n g : Nat) (x : Group) : (s.setGroup n g x).cur = s.cur := rfl
@[simp] theorem State.setGroup_mem (s : State) (n g : Nat) (x : Group) : (s.setGroup n g x).mem = s.mem := rfl
@[simp] theorem State.setGroup_rmeta (s : State) (n g : Nat) (x : Group) : (s.setGroup n g x).rmeta = s.rmeta := rfl
@[simp] theorem State.setGroup_poison (s : State) (n g : Nat) (x : Group) : (s.setGroup n g x).poison = s.poison := rfl
@[simp] theorem State.setGroup_accesses (s : State) (n g : Nat) (x : Group) : (s.setGroup n g x).accesses = s.accesses := rfl
@[simp] theorem State.setGroup_awayLocks (s : State) (n g : Nat) (x : Group) : (s.setGroup n g x).awayLocks = s.awayLocks := rfl
@[simp] theorem State.setGroup_invals (s : State) (n g : Nat) (x : Group) : (s.setGroup n g x).invals = s.invals := rfl
@[simp] theorem State.setGroup_packets (s : State) (n g : Nat) (x : Group) : (s.setGroup n g x).packets = s.packets := rfl
@[simp] theorem State.setGroup_clusters (s : State) (n g : Nat) (x : Group) : (s.setGroup n g x).clusters = s.clusters := rfl
@[simp] theorem State.setGroup_dies (s : State) (n g : Nat) (x : Group) : (s.setGroup n g x).dies = s.dies := rfl
@[simp] theorem State.setGroup_pkgcfg (s : State) (n g : Nat) (x : Group) : (s.setGroup n g x).pkgcfg = s.pkgcfg := rfl
@[simp] theorem State.setGroup_pslstat (s : State) (n g : Nat) (x : Group) : (s.setGroup n g x).pslstat = s.pslstat := rfl
@[simp] theorem State.setGroup_lattol (s : State) (n g : Nat) (x : Group) : (s.setGroup n g x).lattol = s.lattol := rfl
@[simp] theorem State.setGroup_hwin (s : State) (n g : Nat) (x : Group) : (s.setGroup n g x).hwin = s.hwin := rfl
@[simp] theorem State.setGroup_bootstat (s : State) (n g : Nat) (x : Group) : (s.setGroup n g x).bootstat = s.bootstat := rfl
@[simp] theorem State.setGroup_hostAtomics (s : State) (n g : Nat) (x : Group) : (s.setGroup n g x).hostAtomics = s.hostAtomics := rfl
@[simp] theorem State.setGroup_removed (s : State) (n g : Nat) (x : Group) : (s.setGroup n g x).removed = s.removed := rfl
@[simp] theorem State.setGroup_msix (s : State) (n g : Nat) (x : Group) : (s.setGroup n g x).msix = s.msix := rfl
@[simp] theorem State.setGroup_msixPending (s : State) (n g : Nat) (x : Group) : (s.setGroup n g x).msixPending = s.msixPending := rfl
@[simp] theorem State.setGroup_messages (s : State) (n g : Nat) (x : Group) : (s.setGroup n g x).messages = s.messages := rfl
@[simp] theorem State.setGroup_journal (s : State) (n g : Nat) (x : Group) : (s.setGroup n g x).journal = s.journal := rfl
@[simp] theorem State.setGroup_noRider (s : State) (n g : Nat) (x : Group) : (s.setGroup n g x).noRider = s.noRider := rfl
@[simp] theorem State.setGroup_outbox (s : State) (n g : Nat) (x : Group) : (s.setGroup n g x).outbox = s.outbox := rfl

@[simp] theorem State.onCluster_clk (s : State) (n : Nat) (f : Cluster → Cluster) : (s.onCluster n f).clk = s.clk := rfl
@[simp] theorem State.onCluster_free (s : State) (n : Nat) (f : Cluster → Cluster) : (s.onCluster n f).free = s.free := rfl
@[simp] theorem State.onCluster_nextId (s : State) (n : Nat) (f : Cluster → Cluster) : (s.onCluster n f).nextId = s.nextId := rfl
@[simp] theorem State.onCluster_sched (s : State) (n : Nat) (f : Cluster → Cluster) : (s.onCluster n f).sched = s.sched := rfl
@[simp] theorem State.onCluster_turn (s : State) (n : Nat) (f : Cluster → Cluster) : (s.onCluster n f).turn = s.turn := rfl
@[simp] theorem State.onCluster_cur (s : State) (n : Nat) (f : Cluster → Cluster) : (s.onCluster n f).cur = s.cur := rfl
@[simp] theorem State.onCluster_mem (s : State) (n : Nat) (f : Cluster → Cluster) : (s.onCluster n f).mem = s.mem := rfl
@[simp] theorem State.onCluster_rmeta (s : State) (n : Nat) (f : Cluster → Cluster) : (s.onCluster n f).rmeta = s.rmeta := rfl
@[simp] theorem State.onCluster_poison (s : State) (n : Nat) (f : Cluster → Cluster) : (s.onCluster n f).poison = s.poison := rfl
@[simp] theorem State.onCluster_accesses (s : State) (n : Nat) (f : Cluster → Cluster) : (s.onCluster n f).accesses = s.accesses := rfl
@[simp] theorem State.onCluster_awayLocks (s : State) (n : Nat) (f : Cluster → Cluster) : (s.onCluster n f).awayLocks = s.awayLocks := rfl
@[simp] theorem State.onCluster_invals (s : State) (n : Nat) (f : Cluster → Cluster) : (s.onCluster n f).invals = s.invals := rfl
@[simp] theorem State.onCluster_packets (s : State) (n : Nat) (f : Cluster → Cluster) : (s.onCluster n f).packets = s.packets := rfl
@[simp] theorem State.onCluster_cores (s : State) (n : Nat) (f : Cluster → Cluster) : (s.onCluster n f).cores = s.cores := rfl
@[simp] theorem State.onCluster_dies (s : State) (n : Nat) (f : Cluster → Cluster) : (s.onCluster n f).dies = s.dies := rfl
@[simp] theorem State.onCluster_pkgcfg (s : State) (n : Nat) (f : Cluster → Cluster) : (s.onCluster n f).pkgcfg = s.pkgcfg := rfl
@[simp] theorem State.onCluster_pslstat (s : State) (n : Nat) (f : Cluster → Cluster) : (s.onCluster n f).pslstat = s.pslstat := rfl
@[simp] theorem State.onCluster_lattol (s : State) (n : Nat) (f : Cluster → Cluster) : (s.onCluster n f).lattol = s.lattol := rfl
@[simp] theorem State.onCluster_hwin (s : State) (n : Nat) (f : Cluster → Cluster) : (s.onCluster n f).hwin = s.hwin := rfl
@[simp] theorem State.onCluster_bootstat (s : State) (n : Nat) (f : Cluster → Cluster) : (s.onCluster n f).bootstat = s.bootstat := rfl
@[simp] theorem State.onCluster_hostAtomics (s : State) (n : Nat) (f : Cluster → Cluster) : (s.onCluster n f).hostAtomics = s.hostAtomics := rfl
@[simp] theorem State.onCluster_removed (s : State) (n : Nat) (f : Cluster → Cluster) : (s.onCluster n f).removed = s.removed := rfl
@[simp] theorem State.onCluster_msix (s : State) (n : Nat) (f : Cluster → Cluster) : (s.onCluster n f).msix = s.msix := rfl
@[simp] theorem State.onCluster_msixPending (s : State) (n : Nat) (f : Cluster → Cluster) : (s.onCluster n f).msixPending = s.msixPending := rfl
@[simp] theorem State.onCluster_messages (s : State) (n : Nat) (f : Cluster → Cluster) : (s.onCluster n f).messages = s.messages := rfl
@[simp] theorem State.onCluster_journal (s : State) (n : Nat) (f : Cluster → Cluster) : (s.onCluster n f).journal = s.journal := rfl
@[simp] theorem State.onCluster_noRider (s : State) (n : Nat) (f : Cluster → Cluster) : (s.onCluster n f).noRider = s.noRider := rfl
@[simp] theorem State.onCluster_outbox (s : State) (n : Nat) (f : Cluster → Cluster) : (s.onCluster n f).outbox = s.outbox := rfl

@[simp] theorem State.onDie_clk (s : State) (n : Nat) (f : Die → Die) : (s.onDie n f).clk = s.clk := rfl
@[simp] theorem State.onDie_free (s : State) (n : Nat) (f : Die → Die) : (s.onDie n f).free = s.free := rfl
@[simp] theorem State.onDie_nextId (s : State) (n : Nat) (f : Die → Die) : (s.onDie n f).nextId = s.nextId := rfl
@[simp] theorem State.onDie_sched (s : State) (n : Nat) (f : Die → Die) : (s.onDie n f).sched = s.sched := rfl
@[simp] theorem State.onDie_turn (s : State) (n : Nat) (f : Die → Die) : (s.onDie n f).turn = s.turn := rfl
@[simp] theorem State.onDie_cur (s : State) (n : Nat) (f : Die → Die) : (s.onDie n f).cur = s.cur := rfl
@[simp] theorem State.onDie_mem (s : State) (n : Nat) (f : Die → Die) : (s.onDie n f).mem = s.mem := rfl
@[simp] theorem State.onDie_rmeta (s : State) (n : Nat) (f : Die → Die) : (s.onDie n f).rmeta = s.rmeta := rfl
@[simp] theorem State.onDie_poison (s : State) (n : Nat) (f : Die → Die) : (s.onDie n f).poison = s.poison := rfl
@[simp] theorem State.onDie_accesses (s : State) (n : Nat) (f : Die → Die) : (s.onDie n f).accesses = s.accesses := rfl
@[simp] theorem State.onDie_awayLocks (s : State) (n : Nat) (f : Die → Die) : (s.onDie n f).awayLocks = s.awayLocks := rfl
@[simp] theorem State.onDie_invals (s : State) (n : Nat) (f : Die → Die) : (s.onDie n f).invals = s.invals := rfl
@[simp] theorem State.onDie_packets (s : State) (n : Nat) (f : Die → Die) : (s.onDie n f).packets = s.packets := rfl
@[simp] theorem State.onDie_cores (s : State) (n : Nat) (f : Die → Die) : (s.onDie n f).cores = s.cores := rfl
@[simp] theorem State.onDie_clusters (s : State) (n : Nat) (f : Die → Die) : (s.onDie n f).clusters = s.clusters := rfl
@[simp] theorem State.onDie_pkgcfg (s : State) (n : Nat) (f : Die → Die) : (s.onDie n f).pkgcfg = s.pkgcfg := rfl
@[simp] theorem State.onDie_pslstat (s : State) (n : Nat) (f : Die → Die) : (s.onDie n f).pslstat = s.pslstat := rfl
@[simp] theorem State.onDie_lattol (s : State) (n : Nat) (f : Die → Die) : (s.onDie n f).lattol = s.lattol := rfl
@[simp] theorem State.onDie_hwin (s : State) (n : Nat) (f : Die → Die) : (s.onDie n f).hwin = s.hwin := rfl
@[simp] theorem State.onDie_bootstat (s : State) (n : Nat) (f : Die → Die) : (s.onDie n f).bootstat = s.bootstat := rfl
@[simp] theorem State.onDie_hostAtomics (s : State) (n : Nat) (f : Die → Die) : (s.onDie n f).hostAtomics = s.hostAtomics := rfl
@[simp] theorem State.onDie_removed (s : State) (n : Nat) (f : Die → Die) : (s.onDie n f).removed = s.removed := rfl
@[simp] theorem State.onDie_msix (s : State) (n : Nat) (f : Die → Die) : (s.onDie n f).msix = s.msix := rfl
@[simp] theorem State.onDie_msixPending (s : State) (n : Nat) (f : Die → Die) : (s.onDie n f).msixPending = s.msixPending := rfl
@[simp] theorem State.onDie_messages (s : State) (n : Nat) (f : Die → Die) : (s.onDie n f).messages = s.messages := rfl
@[simp] theorem State.onDie_journal (s : State) (n : Nat) (f : Die → Die) : (s.onDie n f).journal = s.journal := rfl
@[simp] theorem State.onDie_noRider (s : State) (n : Nat) (f : Die → Die) : (s.onDie n f).noRider = s.noRider := rfl
@[simp] theorem State.onDie_outbox (s : State) (n : Nat) (f : Die → Die) : (s.onDie n f).outbox = s.outbox := rfl

@[simp] theorem State.write_clk (s : State) (a n v : Nat) : (s.write a n v).clk = s.clk := rfl
@[simp] theorem State.write_free (s : State) (a n v : Nat) : (s.write a n v).free = s.free := rfl
@[simp] theorem State.write_nextId (s : State) (a n v : Nat) : (s.write a n v).nextId = s.nextId := rfl
@[simp] theorem State.write_sched (s : State) (a n v : Nat) : (s.write a n v).sched = s.sched := rfl
@[simp] theorem State.write_turn (s : State) (a n v : Nat) : (s.write a n v).turn = s.turn := rfl
@[simp] theorem State.write_cur (s : State) (a n v : Nat) : (s.write a n v).cur = s.cur := rfl
@[simp] theorem State.write_rmeta (s : State) (a n v : Nat) : (s.write a n v).rmeta = s.rmeta := rfl
@[simp] theorem State.write_poison (s : State) (a n v : Nat) : (s.write a n v).poison = s.poison := rfl
@[simp] theorem State.write_accesses (s : State) (a n v : Nat) : (s.write a n v).accesses = s.accesses := rfl
@[simp] theorem State.write_awayLocks (s : State) (a n v : Nat) : (s.write a n v).awayLocks = s.awayLocks := rfl
@[simp] theorem State.write_invals (s : State) (a n v : Nat) : (s.write a n v).invals = s.invals := rfl
@[simp] theorem State.write_packets (s : State) (a n v : Nat) : (s.write a n v).packets = s.packets := rfl
@[simp] theorem State.write_cores (s : State) (a n v : Nat) : (s.write a n v).cores = s.cores := rfl
@[simp] theorem State.write_clusters (s : State) (a n v : Nat) : (s.write a n v).clusters = s.clusters := rfl
@[simp] theorem State.write_dies (s : State) (a n v : Nat) : (s.write a n v).dies = s.dies := rfl
@[simp] theorem State.write_pkgcfg (s : State) (a n v : Nat) : (s.write a n v).pkgcfg = s.pkgcfg := rfl
@[simp] theorem State.write_pslstat (s : State) (a n v : Nat) : (s.write a n v).pslstat = s.pslstat := rfl
@[simp] theorem State.write_lattol (s : State) (a n v : Nat) : (s.write a n v).lattol = s.lattol := rfl
@[simp] theorem State.write_hwin (s : State) (a n v : Nat) : (s.write a n v).hwin = s.hwin := rfl
@[simp] theorem State.write_bootstat (s : State) (a n v : Nat) : (s.write a n v).bootstat = s.bootstat := rfl
@[simp] theorem State.write_hostAtomics (s : State) (a n v : Nat) : (s.write a n v).hostAtomics = s.hostAtomics := rfl
@[simp] theorem State.write_removed (s : State) (a n v : Nat) : (s.write a n v).removed = s.removed := rfl
@[simp] theorem State.write_msix (s : State) (a n v : Nat) : (s.write a n v).msix = s.msix := rfl
@[simp] theorem State.write_msixPending (s : State) (a n v : Nat) : (s.write a n v).msixPending = s.msixPending := rfl
@[simp] theorem State.write_messages (s : State) (a n v : Nat) : (s.write a n v).messages = s.messages := rfl
@[simp] theorem State.write_journal (s : State) (a n v : Nat) : (s.write a n v).journal = s.journal := rfl
@[simp] theorem State.write_noRider (s : State) (a n v : Nat) : (s.write a n v).noRider = s.noRider := rfl
@[simp] theorem State.write_outbox (s : State) (a n v : Nat) : (s.write a n v).outbox = s.outbox := rfl

@[simp] theorem State.writeMasked_clk (s : State) (a n v m : Nat) : (s.writeMasked a n v m).clk = s.clk := rfl
@[simp] theorem State.writeMasked_free (s : State) (a n v m : Nat) : (s.writeMasked a n v m).free = s.free := rfl
@[simp] theorem State.writeMasked_nextId (s : State) (a n v m : Nat) : (s.writeMasked a n v m).nextId = s.nextId := rfl
@[simp] theorem State.writeMasked_sched (s : State) (a n v m : Nat) : (s.writeMasked a n v m).sched = s.sched := rfl
@[simp] theorem State.writeMasked_turn (s : State) (a n v m : Nat) : (s.writeMasked a n v m).turn = s.turn := rfl
@[simp] theorem State.writeMasked_cur (s : State) (a n v m : Nat) : (s.writeMasked a n v m).cur = s.cur := rfl
@[simp] theorem State.writeMasked_rmeta (s : State) (a n v m : Nat) : (s.writeMasked a n v m).rmeta = s.rmeta := rfl
@[simp] theorem State.writeMasked_poison (s : State) (a n v m : Nat) : (s.writeMasked a n v m).poison = s.poison := rfl
@[simp] theorem State.writeMasked_accesses (s : State) (a n v m : Nat) : (s.writeMasked a n v m).accesses = s.accesses := rfl
@[simp] theorem State.writeMasked_awayLocks (s : State) (a n v m : Nat) : (s.writeMasked a n v m).awayLocks = s.awayLocks := rfl
@[simp] theorem State.writeMasked_invals (s : State) (a n v m : Nat) : (s.writeMasked a n v m).invals = s.invals := rfl
@[simp] theorem State.writeMasked_packets (s : State) (a n v m : Nat) : (s.writeMasked a n v m).packets = s.packets := rfl
@[simp] theorem State.writeMasked_cores (s : State) (a n v m : Nat) : (s.writeMasked a n v m).cores = s.cores := rfl
@[simp] theorem State.writeMasked_clusters (s : State) (a n v m : Nat) : (s.writeMasked a n v m).clusters = s.clusters := rfl
@[simp] theorem State.writeMasked_dies (s : State) (a n v m : Nat) : (s.writeMasked a n v m).dies = s.dies := rfl
@[simp] theorem State.writeMasked_pkgcfg (s : State) (a n v m : Nat) : (s.writeMasked a n v m).pkgcfg = s.pkgcfg := rfl
@[simp] theorem State.writeMasked_pslstat (s : State) (a n v m : Nat) : (s.writeMasked a n v m).pslstat = s.pslstat := rfl
@[simp] theorem State.writeMasked_lattol (s : State) (a n v m : Nat) : (s.writeMasked a n v m).lattol = s.lattol := rfl
@[simp] theorem State.writeMasked_hwin (s : State) (a n v m : Nat) : (s.writeMasked a n v m).hwin = s.hwin := rfl
@[simp] theorem State.writeMasked_bootstat (s : State) (a n v m : Nat) : (s.writeMasked a n v m).bootstat = s.bootstat := rfl
@[simp] theorem State.writeMasked_hostAtomics (s : State) (a n v m : Nat) : (s.writeMasked a n v m).hostAtomics = s.hostAtomics := rfl
@[simp] theorem State.writeMasked_removed (s : State) (a n v m : Nat) : (s.writeMasked a n v m).removed = s.removed := rfl
@[simp] theorem State.writeMasked_msix (s : State) (a n v m : Nat) : (s.writeMasked a n v m).msix = s.msix := rfl
@[simp] theorem State.writeMasked_msixPending (s : State) (a n v m : Nat) : (s.writeMasked a n v m).msixPending = s.msixPending := rfl
@[simp] theorem State.writeMasked_messages (s : State) (a n v m : Nat) : (s.writeMasked a n v m).messages = s.messages := rfl
@[simp] theorem State.writeMasked_journal (s : State) (a n v m : Nat) : (s.writeMasked a n v m).journal = s.journal := rfl
@[simp] theorem State.writeMasked_noRider (s : State) (a n v m : Nat) : (s.writeMasked a n v m).noRider = s.noRider := rfl
@[simp] theorem State.writeMasked_outbox (s : State) (a n v m : Nat) : (s.writeMasked a n v m).outbox = s.outbox := rfl

@[simp] theorem State.draw_clk (s : State) : (s.draw).clk = s.clk := rfl
@[simp] theorem State.draw_nextId (s : State) : (s.draw).nextId = s.nextId := rfl
@[simp] theorem State.draw_sched (s : State) : (s.draw).sched = s.sched := rfl
@[simp] theorem State.draw_turn (s : State) : (s.draw).turn = s.turn := rfl
@[simp] theorem State.draw_cur (s : State) : (s.draw).cur = s.cur := rfl
@[simp] theorem State.draw_mem (s : State) : (s.draw).mem = s.mem := rfl
@[simp] theorem State.draw_rmeta (s : State) : (s.draw).rmeta = s.rmeta := rfl
@[simp] theorem State.draw_poison (s : State) : (s.draw).poison = s.poison := rfl
@[simp] theorem State.draw_accesses (s : State) : (s.draw).accesses = s.accesses := rfl
@[simp] theorem State.draw_awayLocks (s : State) : (s.draw).awayLocks = s.awayLocks := rfl
@[simp] theorem State.draw_invals (s : State) : (s.draw).invals = s.invals := rfl
@[simp] theorem State.draw_packets (s : State) : (s.draw).packets = s.packets := rfl
@[simp] theorem State.draw_cores (s : State) : (s.draw).cores = s.cores := rfl
@[simp] theorem State.draw_clusters (s : State) : (s.draw).clusters = s.clusters := rfl
@[simp] theorem State.draw_dies (s : State) : (s.draw).dies = s.dies := rfl
@[simp] theorem State.draw_pkgcfg (s : State) : (s.draw).pkgcfg = s.pkgcfg := rfl
@[simp] theorem State.draw_pslstat (s : State) : (s.draw).pslstat = s.pslstat := rfl
@[simp] theorem State.draw_lattol (s : State) : (s.draw).lattol = s.lattol := rfl
@[simp] theorem State.draw_hwin (s : State) : (s.draw).hwin = s.hwin := rfl
@[simp] theorem State.draw_bootstat (s : State) : (s.draw).bootstat = s.bootstat := rfl
@[simp] theorem State.draw_hostAtomics (s : State) : (s.draw).hostAtomics = s.hostAtomics := rfl
@[simp] theorem State.draw_removed (s : State) : (s.draw).removed = s.removed := rfl
@[simp] theorem State.draw_msix (s : State) : (s.draw).msix = s.msix := rfl
@[simp] theorem State.draw_msixPending (s : State) : (s.draw).msixPending = s.msixPending := rfl
@[simp] theorem State.draw_messages (s : State) : (s.draw).messages = s.messages := rfl
@[simp] theorem State.draw_journal (s : State) : (s.draw).journal = s.journal := rfl
@[simp] theorem State.draw_noRider (s : State) : (s.draw).noRider = s.noRider := rfl
@[simp] theorem State.draw_outbox (s : State) : (s.draw).outbox = s.outbox := rfl

@[simp] theorem State.dropTx_clk (s : State) (n g l : Nat) : (s.dropTx n g l).clk = s.clk := rfl
@[simp] theorem State.dropTx_free (s : State) (n g l : Nat) : (s.dropTx n g l).free = s.free := rfl
@[simp] theorem State.dropTx_nextId (s : State) (n g l : Nat) : (s.dropTx n g l).nextId = s.nextId := rfl
@[simp] theorem State.dropTx_sched (s : State) (n g l : Nat) : (s.dropTx n g l).sched = s.sched := rfl
@[simp] theorem State.dropTx_turn (s : State) (n g l : Nat) : (s.dropTx n g l).turn = s.turn := rfl
@[simp] theorem State.dropTx_cur (s : State) (n g l : Nat) : (s.dropTx n g l).cur = s.cur := rfl
@[simp] theorem State.dropTx_mem (s : State) (n g l : Nat) : (s.dropTx n g l).mem = s.mem := rfl
@[simp] theorem State.dropTx_rmeta (s : State) (n g l : Nat) : (s.dropTx n g l).rmeta = s.rmeta := rfl
@[simp] theorem State.dropTx_poison (s : State) (n g l : Nat) : (s.dropTx n g l).poison = s.poison := rfl
@[simp] theorem State.dropTx_awayLocks (s : State) (n g l : Nat) : (s.dropTx n g l).awayLocks = s.awayLocks := rfl
@[simp] theorem State.dropTx_invals (s : State) (n g l : Nat) : (s.dropTx n g l).invals = s.invals := rfl
@[simp] theorem State.dropTx_packets (s : State) (n g l : Nat) : (s.dropTx n g l).packets = s.packets := rfl
@[simp] theorem State.dropTx_cores (s : State) (n g l : Nat) : (s.dropTx n g l).cores = s.cores := rfl
@[simp] theorem State.dropTx_clusters (s : State) (n g l : Nat) : (s.dropTx n g l).clusters = s.clusters := rfl
@[simp] theorem State.dropTx_dies (s : State) (n g l : Nat) : (s.dropTx n g l).dies = s.dies := rfl
@[simp] theorem State.dropTx_pkgcfg (s : State) (n g l : Nat) : (s.dropTx n g l).pkgcfg = s.pkgcfg := rfl
@[simp] theorem State.dropTx_pslstat (s : State) (n g l : Nat) : (s.dropTx n g l).pslstat = s.pslstat := rfl
@[simp] theorem State.dropTx_lattol (s : State) (n g l : Nat) : (s.dropTx n g l).lattol = s.lattol := rfl
@[simp] theorem State.dropTx_hwin (s : State) (n g l : Nat) : (s.dropTx n g l).hwin = s.hwin := rfl
@[simp] theorem State.dropTx_bootstat (s : State) (n g l : Nat) : (s.dropTx n g l).bootstat = s.bootstat := rfl
@[simp] theorem State.dropTx_hostAtomics (s : State) (n g l : Nat) : (s.dropTx n g l).hostAtomics = s.hostAtomics := rfl
@[simp] theorem State.dropTx_removed (s : State) (n g l : Nat) : (s.dropTx n g l).removed = s.removed := rfl
@[simp] theorem State.dropTx_msix (s : State) (n g l : Nat) : (s.dropTx n g l).msix = s.msix := rfl
@[simp] theorem State.dropTx_msixPending (s : State) (n g l : Nat) : (s.dropTx n g l).msixPending = s.msixPending := rfl
@[simp] theorem State.dropTx_messages (s : State) (n g l : Nat) : (s.dropTx n g l).messages = s.messages := rfl
@[simp] theorem State.dropTx_journal (s : State) (n g l : Nat) : (s.dropTx n g l).journal = s.journal := rfl
@[simp] theorem State.dropTx_noRider (s : State) (n g l : Nat) : (s.dropTx n g l).noRider = s.noRider := rfl
@[simp] theorem State.dropTx_outbox (s : State) (n g l : Nat) : (s.dropTx n g l).outbox = s.outbox := rfl

@[simp] theorem State.clearSkip_clk (s : State) : (s.clearSkip).clk = s.clk := rfl
@[simp] theorem State.clearSkip_free (s : State) : (s.clearSkip).free = s.free := rfl
@[simp] theorem State.clearSkip_nextId (s : State) : (s.clearSkip).nextId = s.nextId := rfl
@[simp] theorem State.clearSkip_sched (s : State) : (s.clearSkip).sched = s.sched := rfl
@[simp] theorem State.clearSkip_turn (s : State) : (s.clearSkip).turn = s.turn := rfl
@[simp] theorem State.clearSkip_cur (s : State) : (s.clearSkip).cur = s.cur := rfl
@[simp] theorem State.clearSkip_mem (s : State) : (s.clearSkip).mem = s.mem := rfl
@[simp] theorem State.clearSkip_rmeta (s : State) : (s.clearSkip).rmeta = s.rmeta := rfl
@[simp] theorem State.clearSkip_poison (s : State) : (s.clearSkip).poison = s.poison := rfl
@[simp] theorem State.clearSkip_accesses (s : State) : (s.clearSkip).accesses = s.accesses := rfl
@[simp] theorem State.clearSkip_awayLocks (s : State) : (s.clearSkip).awayLocks = s.awayLocks := rfl
@[simp] theorem State.clearSkip_invals (s : State) : (s.clearSkip).invals = s.invals := rfl
@[simp] theorem State.clearSkip_packets (s : State) : (s.clearSkip).packets = s.packets := rfl
@[simp] theorem State.clearSkip_clusters (s : State) : (s.clearSkip).clusters = s.clusters := rfl
@[simp] theorem State.clearSkip_dies (s : State) : (s.clearSkip).dies = s.dies := rfl
@[simp] theorem State.clearSkip_pkgcfg (s : State) : (s.clearSkip).pkgcfg = s.pkgcfg := rfl
@[simp] theorem State.clearSkip_pslstat (s : State) : (s.clearSkip).pslstat = s.pslstat := rfl
@[simp] theorem State.clearSkip_lattol (s : State) : (s.clearSkip).lattol = s.lattol := rfl
@[simp] theorem State.clearSkip_hwin (s : State) : (s.clearSkip).hwin = s.hwin := rfl
@[simp] theorem State.clearSkip_bootstat (s : State) : (s.clearSkip).bootstat = s.bootstat := rfl
@[simp] theorem State.clearSkip_hostAtomics (s : State) : (s.clearSkip).hostAtomics = s.hostAtomics := rfl
@[simp] theorem State.clearSkip_removed (s : State) : (s.clearSkip).removed = s.removed := rfl
@[simp] theorem State.clearSkip_msix (s : State) : (s.clearSkip).msix = s.msix := rfl
@[simp] theorem State.clearSkip_msixPending (s : State) : (s.clearSkip).msixPending = s.msixPending := rfl
@[simp] theorem State.clearSkip_messages (s : State) : (s.clearSkip).messages = s.messages := rfl
@[simp] theorem State.clearSkip_journal (s : State) : (s.clearSkip).journal = s.journal := rfl
@[simp] theorem State.clearSkip_noRider (s : State) : (s.clearSkip).noRider = s.noRider := rfl
@[simp] theorem State.clearSkip_outbox (s : State) : (s.clearSkip).outbox = s.outbox := rfl

@[simp] theorem State.onGroup_clk (s : State) (n g : Nat) (f : Group → Group) : (s.onGroup n g f).clk = s.clk := by
  unfold State.onGroup; split <;> rfl
@[simp] theorem State.onGroup_free (s : State) (n g : Nat) (f : Group → Group) : (s.onGroup n g f).free = s.free := by
  unfold State.onGroup; split <;> rfl
@[simp] theorem State.onGroup_nextId (s : State) (n g : Nat) (f : Group → Group) : (s.onGroup n g f).nextId = s.nextId := by
  unfold State.onGroup; split <;> rfl
@[simp] theorem State.onGroup_sched (s : State) (n g : Nat) (f : Group → Group) : (s.onGroup n g f).sched = s.sched := by
  unfold State.onGroup; split <;> rfl
@[simp] theorem State.onGroup_turn (s : State) (n g : Nat) (f : Group → Group) : (s.onGroup n g f).turn = s.turn := by
  unfold State.onGroup; split <;> rfl
@[simp] theorem State.onGroup_cur (s : State) (n g : Nat) (f : Group → Group) : (s.onGroup n g f).cur = s.cur := by
  unfold State.onGroup; split <;> rfl
@[simp] theorem State.onGroup_mem (s : State) (n g : Nat) (f : Group → Group) : (s.onGroup n g f).mem = s.mem := by
  unfold State.onGroup; split <;> rfl
@[simp] theorem State.onGroup_rmeta (s : State) (n g : Nat) (f : Group → Group) : (s.onGroup n g f).rmeta = s.rmeta := by
  unfold State.onGroup; split <;> rfl
@[simp] theorem State.onGroup_poison (s : State) (n g : Nat) (f : Group → Group) : (s.onGroup n g f).poison = s.poison := by
  unfold State.onGroup; split <;> rfl
@[simp] theorem State.onGroup_accesses (s : State) (n g : Nat) (f : Group → Group) : (s.onGroup n g f).accesses = s.accesses := by
  unfold State.onGroup; split <;> rfl
@[simp] theorem State.onGroup_awayLocks (s : State) (n g : Nat) (f : Group → Group) : (s.onGroup n g f).awayLocks = s.awayLocks := by
  unfold State.onGroup; split <;> rfl
@[simp] theorem State.onGroup_invals (s : State) (n g : Nat) (f : Group → Group) : (s.onGroup n g f).invals = s.invals := by
  unfold State.onGroup; split <;> rfl
@[simp] theorem State.onGroup_packets (s : State) (n g : Nat) (f : Group → Group) : (s.onGroup n g f).packets = s.packets := by
  unfold State.onGroup; split <;> rfl
@[simp] theorem State.onGroup_clusters (s : State) (n g : Nat) (f : Group → Group) : (s.onGroup n g f).clusters = s.clusters := by
  unfold State.onGroup; split <;> rfl
@[simp] theorem State.onGroup_dies (s : State) (n g : Nat) (f : Group → Group) : (s.onGroup n g f).dies = s.dies := by
  unfold State.onGroup; split <;> rfl
@[simp] theorem State.onGroup_pkgcfg (s : State) (n g : Nat) (f : Group → Group) : (s.onGroup n g f).pkgcfg = s.pkgcfg := by
  unfold State.onGroup; split <;> rfl
@[simp] theorem State.onGroup_pslstat (s : State) (n g : Nat) (f : Group → Group) : (s.onGroup n g f).pslstat = s.pslstat := by
  unfold State.onGroup; split <;> rfl
@[simp] theorem State.onGroup_lattol (s : State) (n g : Nat) (f : Group → Group) : (s.onGroup n g f).lattol = s.lattol := by
  unfold State.onGroup; split <;> rfl
@[simp] theorem State.onGroup_hwin (s : State) (n g : Nat) (f : Group → Group) : (s.onGroup n g f).hwin = s.hwin := by
  unfold State.onGroup; split <;> rfl
@[simp] theorem State.onGroup_bootstat (s : State) (n g : Nat) (f : Group → Group) : (s.onGroup n g f).bootstat = s.bootstat := by
  unfold State.onGroup; split <;> rfl
@[simp] theorem State.onGroup_hostAtomics (s : State) (n g : Nat) (f : Group → Group) : (s.onGroup n g f).hostAtomics = s.hostAtomics := by
  unfold State.onGroup; split <;> rfl
@[simp] theorem State.onGroup_removed (s : State) (n g : Nat) (f : Group → Group) : (s.onGroup n g f).removed = s.removed := by
  unfold State.onGroup; split <;> rfl
@[simp] theorem State.onGroup_msix (s : State) (n g : Nat) (f : Group → Group) : (s.onGroup n g f).msix = s.msix := by
  unfold State.onGroup; split <;> rfl
@[simp] theorem State.onGroup_msixPending (s : State) (n g : Nat) (f : Group → Group) : (s.onGroup n g f).msixPending = s.msixPending := by
  unfold State.onGroup; split <;> rfl
@[simp] theorem State.onGroup_messages (s : State) (n g : Nat) (f : Group → Group) : (s.onGroup n g f).messages = s.messages := by
  unfold State.onGroup; split <;> rfl
@[simp] theorem State.onGroup_journal (s : State) (n g : Nat) (f : Group → Group) : (s.onGroup n g f).journal = s.journal := by
  unfold State.onGroup; split <;> rfl
@[simp] theorem State.onGroup_noRider (s : State) (n g : Nat) (f : Group → Group) : (s.onGroup n g f).noRider = s.noRider := by
  unfold State.onGroup; split <;> rfl
@[simp] theorem State.onGroup_outbox (s : State) (n g : Nat) (f : Group → Group) : (s.onGroup n g f).outbox = s.outbox := by
  unfold State.onGroup; split <;> rfl

@[simp] theorem Group.onLanes_gid (x : Group) (ls : List Nat) (f : Nat → Lane → Lane) : (x.onLanes ls f).gid = x.gid := rfl
@[simp] theorem Group.onLanes_slot (x : Group) (ls : List Nat) (f : Nat → Lane → Lane) : (x.onLanes ls f).slot = x.slot := rfl
@[simp] theorem Group.onLanes_pipe (x : Group) (ls : List Nat) (f : Nat → Lane → Lane) : (x.onLanes ls f).pipe = x.pipe := rfl
@[simp] theorem Group.onLanes_stamp (x : Group) (ls : List Nat) (f : Nat → Lane → Lane) : (x.onLanes ls f).stamp = x.stamp := rfl
@[simp] theorem Group.onLanes_uid (x : Group) (ls : List Nat) (f : Nat → Lane → Lane) : (x.onLanes ls f).uid = x.uid := rfl
@[simp] theorem Group.onLanes_window (x : Group) (ls : List Nat) (f : Nat → Lane → Lane) : (x.onLanes ls f).window = x.window := rfl
@[simp] theorem Group.onLanes_v (x : Group) (ls : List Nat) (f : Nat → Lane → Lane) : (x.onLanes ls f).v = x.v := rfl
@[simp] theorem Group.onLanes_badV (x : Group) (ls : List Nat) (f : Nat → Lane → Lane) : (x.onLanes ls f).badV = x.badV := rfl
@[simp] theorem Group.onLanes_s (x : Group) (ls : List Nat) (f : Nat → Lane → Lane) : (x.onLanes ls f).s = x.s := rfl
@[simp] theorem Group.onLanes_masks (x : Group) (ls : List Nat) (f : Nat → Lane → Lane) : (x.onLanes ls f).masks = x.masks := rfl
@[simp] theorem Group.onLanes_opid (x : Group) (ls : List Nat) (f : Nat → Lane → Lane) : (x.onLanes ls f).opid = x.opid := rfl
@[simp] theorem Group.onLanes_tenant (x : Group) (ls : List Nat) (f : Nat → Lane → Lane) : (x.onLanes ls f).tenant = x.tenant := rfl
@[simp] theorem Group.onLanes_rows (x : Group) (ls : List Nat) (f : Nat → Lane → Lane) : (x.onLanes ls f).rows = x.rows := rfl
@[simp] theorem Group.onLanes_tileh (x : Group) (ls : List Nat) (f : Nat → Lane → Lane) : (x.onLanes ls f).tileh = x.tileh := rfl
@[simp] theorem Group.onLanes_tile (x : Group) (ls : List Nat) (f : Nat → Lane → Lane) : (x.onLanes ls f).tile = x.tile := rfl
@[simp] theorem Group.onLanes_tileTag (x : Group) (ls : List Nat) (f : Nat → Lane → Lane) : (x.onLanes ls f).tileTag = x.tileTag := rfl
@[simp] theorem Group.onLanes_tileFired (x : Group) (ls : List Nat) (f : Nat → Lane → Lane) : (x.onLanes ls f).tileFired = x.tileFired := rfl
@[simp] theorem Group.onLanes_tileOrder (x : Group) (ls : List Nat) (f : Nat → Lane → Lane) : (x.onLanes ls f).tileOrder = x.tileOrder := rfl
@[simp] theorem Group.onLanes_fpctl (x : Group) (ls : List Nat) (f : Nat → Lane → Lane) : (x.onLanes ls f).fpctl = x.fpctl := rfl
@[simp] theorem Group.onLanes_fpstat (x : Group) (ls : List Nat) (f : Nat → Lane → Lane) : (x.onLanes ls f).fpstat = x.fpstat := rfl
@[simp] theorem Group.onLanes_tags (x : Group) (ls : List Nat) (f : Nat → Lane → Lane) : (x.onLanes ls f).tags = x.tags := rfl
@[simp] theorem Group.onLanes_current (x : Group) (ls : List Nat) (f : Nat → Lane → Lane) : (x.onLanes ls f).current = x.current := rfl
@[simp] theorem Group.onLanes_turn (x : Group) (ls : List Nat) (f : Nat → Lane → Lane) : (x.onLanes ls f).turn = x.turn := rfl
@[simp] theorem Group.onLanes_idem (x : Group) (ls : List Nat) (f : Nat → Lane → Lane) : (x.onLanes ls f).idem = x.idem := rfl
@[simp] theorem Group.onLanes_seqno (x : Group) (ls : List Nat) (f : Nat → Lane → Lane) : (x.onLanes ls f).seqno = x.seqno := rfl
@[simp] theorem Group.onLanes_ride (x : Group) (ls : List Nat) (f : Nat → Lane → Lane) : (x.onLanes ls f).ride = x.ride := rfl
@[simp] theorem Group.onLanes_boardings (x : Group) (ls : List Nat) (f : Nat → Lane → Lane) : (x.onLanes ls f).boardings = x.boardings := rfl
@[simp] theorem Group.onLanes_eject (x : Group) (ls : List Nat) (f : Nat → Lane → Lane) : (x.onLanes ls f).eject = x.eject := rfl
@[simp] theorem Group.onLanes_step (x : Group) (ls : List Nat) (f : Nat → Lane → Lane) : (x.onLanes ls f).step = x.step := rfl
@[simp] theorem Group.onLanes_frozenSlot (x : Group) (ls : List Nat) (f : Nat → Lane → Lane) : (x.onLanes ls f).frozenSlot = x.frozenSlot := rfl
@[simp] theorem Group.onLanes_frozenRegion (x : Group) (ls : List Nat) (f : Nat → Lane → Lane) : (x.onLanes ls f).frozenRegion = x.frozenRegion := rfl
@[simp] theorem Group.onLanes_parent (x : Group) (ls : List Nat) (f : Nat → Lane → Lane) : (x.onLanes ls f).parent = x.parent := rfl
@[simp] theorem Group.onLanes_lastIssue (x : Group) (ls : List Nat) (f : Nat → Lane → Lane) : (x.onLanes ls f).lastIssue = x.lastIssue := rfl
@[simp] theorem Group.onLanes_skip (x : Group) (ls : List Nat) (f : Nat → Lane → Lane) : (x.onLanes ls f).skip = x.skip := rfl

@[simp] theorem Group.onLane_gid (x : Group) (l : Nat) (f : Lane → Lane) : (x.onLane l f).gid = x.gid := rfl
@[simp] theorem Group.onLane_slot (x : Group) (l : Nat) (f : Lane → Lane) : (x.onLane l f).slot = x.slot := rfl
@[simp] theorem Group.onLane_pipe (x : Group) (l : Nat) (f : Lane → Lane) : (x.onLane l f).pipe = x.pipe := rfl
@[simp] theorem Group.onLane_stamp (x : Group) (l : Nat) (f : Lane → Lane) : (x.onLane l f).stamp = x.stamp := rfl
@[simp] theorem Group.onLane_uid (x : Group) (l : Nat) (f : Lane → Lane) : (x.onLane l f).uid = x.uid := rfl
@[simp] theorem Group.onLane_window (x : Group) (l : Nat) (f : Lane → Lane) : (x.onLane l f).window = x.window := rfl
@[simp] theorem Group.onLane_v (x : Group) (l : Nat) (f : Lane → Lane) : (x.onLane l f).v = x.v := rfl
@[simp] theorem Group.onLane_badV (x : Group) (l : Nat) (f : Lane → Lane) : (x.onLane l f).badV = x.badV := rfl
@[simp] theorem Group.onLane_s (x : Group) (l : Nat) (f : Lane → Lane) : (x.onLane l f).s = x.s := rfl
@[simp] theorem Group.onLane_masks (x : Group) (l : Nat) (f : Lane → Lane) : (x.onLane l f).masks = x.masks := rfl
@[simp] theorem Group.onLane_opid (x : Group) (l : Nat) (f : Lane → Lane) : (x.onLane l f).opid = x.opid := rfl
@[simp] theorem Group.onLane_tenant (x : Group) (l : Nat) (f : Lane → Lane) : (x.onLane l f).tenant = x.tenant := rfl
@[simp] theorem Group.onLane_rows (x : Group) (l : Nat) (f : Lane → Lane) : (x.onLane l f).rows = x.rows := rfl
@[simp] theorem Group.onLane_tileh (x : Group) (l : Nat) (f : Lane → Lane) : (x.onLane l f).tileh = x.tileh := rfl
@[simp] theorem Group.onLane_tile (x : Group) (l : Nat) (f : Lane → Lane) : (x.onLane l f).tile = x.tile := rfl
@[simp] theorem Group.onLane_tileTag (x : Group) (l : Nat) (f : Lane → Lane) : (x.onLane l f).tileTag = x.tileTag := rfl
@[simp] theorem Group.onLane_tileFired (x : Group) (l : Nat) (f : Lane → Lane) : (x.onLane l f).tileFired = x.tileFired := rfl
@[simp] theorem Group.onLane_tileOrder (x : Group) (l : Nat) (f : Lane → Lane) : (x.onLane l f).tileOrder = x.tileOrder := rfl
@[simp] theorem Group.onLane_fpctl (x : Group) (l : Nat) (f : Lane → Lane) : (x.onLane l f).fpctl = x.fpctl := rfl
@[simp] theorem Group.onLane_fpstat (x : Group) (l : Nat) (f : Lane → Lane) : (x.onLane l f).fpstat = x.fpstat := rfl
@[simp] theorem Group.onLane_tags (x : Group) (l : Nat) (f : Lane → Lane) : (x.onLane l f).tags = x.tags := rfl
@[simp] theorem Group.onLane_current (x : Group) (l : Nat) (f : Lane → Lane) : (x.onLane l f).current = x.current := rfl
@[simp] theorem Group.onLane_turn (x : Group) (l : Nat) (f : Lane → Lane) : (x.onLane l f).turn = x.turn := rfl
@[simp] theorem Group.onLane_idem (x : Group) (l : Nat) (f : Lane → Lane) : (x.onLane l f).idem = x.idem := rfl
@[simp] theorem Group.onLane_seqno (x : Group) (l : Nat) (f : Lane → Lane) : (x.onLane l f).seqno = x.seqno := rfl
@[simp] theorem Group.onLane_ride (x : Group) (l : Nat) (f : Lane → Lane) : (x.onLane l f).ride = x.ride := rfl
@[simp] theorem Group.onLane_boardings (x : Group) (l : Nat) (f : Lane → Lane) : (x.onLane l f).boardings = x.boardings := rfl
@[simp] theorem Group.onLane_eject (x : Group) (l : Nat) (f : Lane → Lane) : (x.onLane l f).eject = x.eject := rfl
@[simp] theorem Group.onLane_step (x : Group) (l : Nat) (f : Lane → Lane) : (x.onLane l f).step = x.step := rfl
@[simp] theorem Group.onLane_frozenSlot (x : Group) (l : Nat) (f : Lane → Lane) : (x.onLane l f).frozenSlot = x.frozenSlot := rfl
@[simp] theorem Group.onLane_frozenRegion (x : Group) (l : Nat) (f : Lane → Lane) : (x.onLane l f).frozenRegion = x.frozenRegion := rfl
@[simp] theorem Group.onLane_parent (x : Group) (l : Nat) (f : Lane → Lane) : (x.onLane l f).parent = x.parent := rfl
@[simp] theorem Group.onLane_lastIssue (x : Group) (l : Nat) (f : Lane → Lane) : (x.onLane l f).lastIssue = x.lastIssue := rfl
@[simp] theorem Group.onLane_skip (x : Group) (l : Nat) (f : Lane → Lane) : (x.onLane l f).skip = x.skip := rfl

@[simp] theorem Group.setMask_gid (x : Group) (k : Nat) (m : MaskReg) : (x.setMask k m).gid = x.gid := rfl
@[simp] theorem Group.setMask_slot (x : Group) (k : Nat) (m : MaskReg) : (x.setMask k m).slot = x.slot := rfl
@[simp] theorem Group.setMask_pipe (x : Group) (k : Nat) (m : MaskReg) : (x.setMask k m).pipe = x.pipe := rfl
@[simp] theorem Group.setMask_stamp (x : Group) (k : Nat) (m : MaskReg) : (x.setMask k m).stamp = x.stamp := rfl
@[simp] theorem Group.setMask_uid (x : Group) (k : Nat) (m : MaskReg) : (x.setMask k m).uid = x.uid := rfl
@[simp] theorem Group.setMask_window (x : Group) (k : Nat) (m : MaskReg) : (x.setMask k m).window = x.window := rfl
@[simp] theorem Group.setMask_v (x : Group) (k : Nat) (m : MaskReg) : (x.setMask k m).v = x.v := rfl
@[simp] theorem Group.setMask_badV (x : Group) (k : Nat) (m : MaskReg) : (x.setMask k m).badV = x.badV := rfl
@[simp] theorem Group.setMask_s (x : Group) (k : Nat) (m : MaskReg) : (x.setMask k m).s = x.s := rfl
@[simp] theorem Group.setMask_lanes (x : Group) (k : Nat) (m : MaskReg) : (x.setMask k m).lanes = x.lanes := rfl
@[simp] theorem Group.setMask_opid (x : Group) (k : Nat) (m : MaskReg) : (x.setMask k m).opid = x.opid := rfl
@[simp] theorem Group.setMask_tenant (x : Group) (k : Nat) (m : MaskReg) : (x.setMask k m).tenant = x.tenant := rfl
@[simp] theorem Group.setMask_rows (x : Group) (k : Nat) (m : MaskReg) : (x.setMask k m).rows = x.rows := rfl
@[simp] theorem Group.setMask_tileh (x : Group) (k : Nat) (m : MaskReg) : (x.setMask k m).tileh = x.tileh := rfl
@[simp] theorem Group.setMask_tile (x : Group) (k : Nat) (m : MaskReg) : (x.setMask k m).tile = x.tile := rfl
@[simp] theorem Group.setMask_tileTag (x : Group) (k : Nat) (m : MaskReg) : (x.setMask k m).tileTag = x.tileTag := rfl
@[simp] theorem Group.setMask_tileFired (x : Group) (k : Nat) (m : MaskReg) : (x.setMask k m).tileFired = x.tileFired := rfl
@[simp] theorem Group.setMask_tileOrder (x : Group) (k : Nat) (m : MaskReg) : (x.setMask k m).tileOrder = x.tileOrder := rfl
@[simp] theorem Group.setMask_fpctl (x : Group) (k : Nat) (m : MaskReg) : (x.setMask k m).fpctl = x.fpctl := rfl
@[simp] theorem Group.setMask_fpstat (x : Group) (k : Nat) (m : MaskReg) : (x.setMask k m).fpstat = x.fpstat := rfl
@[simp] theorem Group.setMask_tags (x : Group) (k : Nat) (m : MaskReg) : (x.setMask k m).tags = x.tags := rfl
@[simp] theorem Group.setMask_current (x : Group) (k : Nat) (m : MaskReg) : (x.setMask k m).current = x.current := rfl
@[simp] theorem Group.setMask_turn (x : Group) (k : Nat) (m : MaskReg) : (x.setMask k m).turn = x.turn := rfl
@[simp] theorem Group.setMask_idem (x : Group) (k : Nat) (m : MaskReg) : (x.setMask k m).idem = x.idem := rfl
@[simp] theorem Group.setMask_seqno (x : Group) (k : Nat) (m : MaskReg) : (x.setMask k m).seqno = x.seqno := rfl
@[simp] theorem Group.setMask_ride (x : Group) (k : Nat) (m : MaskReg) : (x.setMask k m).ride = x.ride := rfl
@[simp] theorem Group.setMask_boardings (x : Group) (k : Nat) (m : MaskReg) : (x.setMask k m).boardings = x.boardings := rfl
@[simp] theorem Group.setMask_eject (x : Group) (k : Nat) (m : MaskReg) : (x.setMask k m).eject = x.eject := rfl
@[simp] theorem Group.setMask_step (x : Group) (k : Nat) (m : MaskReg) : (x.setMask k m).step = x.step := rfl
@[simp] theorem Group.setMask_frozenSlot (x : Group) (k : Nat) (m : MaskReg) : (x.setMask k m).frozenSlot = x.frozenSlot := rfl
@[simp] theorem Group.setMask_frozenRegion (x : Group) (k : Nat) (m : MaskReg) : (x.setMask k m).frozenRegion = x.frozenRegion := rfl
@[simp] theorem Group.setMask_parent (x : Group) (k : Nat) (m : MaskReg) : (x.setMask k m).parent = x.parent := rfl
@[simp] theorem Group.setMask_lastIssue (x : Group) (k : Nat) (m : MaskReg) : (x.setMask k m).lastIssue = x.lastIssue := rfl
@[simp] theorem Group.setMask_skip (x : Group) (k : Nat) (m : MaskReg) : (x.setMask k m).skip = x.skip := rfl

@[simp] theorem Group.onTag_gid (x : Group) (k : Nat) (f : Tag → Tag) : (x.onTag k f).gid = x.gid := rfl
@[simp] theorem Group.onTag_slot (x : Group) (k : Nat) (f : Tag → Tag) : (x.onTag k f).slot = x.slot := rfl
@[simp] theorem Group.onTag_pipe (x : Group) (k : Nat) (f : Tag → Tag) : (x.onTag k f).pipe = x.pipe := rfl
@[simp] theorem Group.onTag_stamp (x : Group) (k : Nat) (f : Tag → Tag) : (x.onTag k f).stamp = x.stamp := rfl
@[simp] theorem Group.onTag_uid (x : Group) (k : Nat) (f : Tag → Tag) : (x.onTag k f).uid = x.uid := rfl
@[simp] theorem Group.onTag_window (x : Group) (k : Nat) (f : Tag → Tag) : (x.onTag k f).window = x.window := rfl
@[simp] theorem Group.onTag_v (x : Group) (k : Nat) (f : Tag → Tag) : (x.onTag k f).v = x.v := rfl
@[simp] theorem Group.onTag_badV (x : Group) (k : Nat) (f : Tag → Tag) : (x.onTag k f).badV = x.badV := rfl
@[simp] theorem Group.onTag_s (x : Group) (k : Nat) (f : Tag → Tag) : (x.onTag k f).s = x.s := rfl
@[simp] theorem Group.onTag_lanes (x : Group) (k : Nat) (f : Tag → Tag) : (x.onTag k f).lanes = x.lanes := rfl
@[simp] theorem Group.onTag_masks (x : Group) (k : Nat) (f : Tag → Tag) : (x.onTag k f).masks = x.masks := rfl
@[simp] theorem Group.onTag_opid (x : Group) (k : Nat) (f : Tag → Tag) : (x.onTag k f).opid = x.opid := rfl
@[simp] theorem Group.onTag_tenant (x : Group) (k : Nat) (f : Tag → Tag) : (x.onTag k f).tenant = x.tenant := rfl
@[simp] theorem Group.onTag_rows (x : Group) (k : Nat) (f : Tag → Tag) : (x.onTag k f).rows = x.rows := rfl
@[simp] theorem Group.onTag_tileh (x : Group) (k : Nat) (f : Tag → Tag) : (x.onTag k f).tileh = x.tileh := rfl
@[simp] theorem Group.onTag_tile (x : Group) (k : Nat) (f : Tag → Tag) : (x.onTag k f).tile = x.tile := rfl
@[simp] theorem Group.onTag_tileTag (x : Group) (k : Nat) (f : Tag → Tag) : (x.onTag k f).tileTag = x.tileTag := rfl
@[simp] theorem Group.onTag_tileFired (x : Group) (k : Nat) (f : Tag → Tag) : (x.onTag k f).tileFired = x.tileFired := rfl
@[simp] theorem Group.onTag_tileOrder (x : Group) (k : Nat) (f : Tag → Tag) : (x.onTag k f).tileOrder = x.tileOrder := rfl
@[simp] theorem Group.onTag_fpctl (x : Group) (k : Nat) (f : Tag → Tag) : (x.onTag k f).fpctl = x.fpctl := rfl
@[simp] theorem Group.onTag_fpstat (x : Group) (k : Nat) (f : Tag → Tag) : (x.onTag k f).fpstat = x.fpstat := rfl
@[simp] theorem Group.onTag_current (x : Group) (k : Nat) (f : Tag → Tag) : (x.onTag k f).current = x.current := rfl
@[simp] theorem Group.onTag_turn (x : Group) (k : Nat) (f : Tag → Tag) : (x.onTag k f).turn = x.turn := rfl
@[simp] theorem Group.onTag_idem (x : Group) (k : Nat) (f : Tag → Tag) : (x.onTag k f).idem = x.idem := rfl
@[simp] theorem Group.onTag_seqno (x : Group) (k : Nat) (f : Tag → Tag) : (x.onTag k f).seqno = x.seqno := rfl
@[simp] theorem Group.onTag_ride (x : Group) (k : Nat) (f : Tag → Tag) : (x.onTag k f).ride = x.ride := rfl
@[simp] theorem Group.onTag_boardings (x : Group) (k : Nat) (f : Tag → Tag) : (x.onTag k f).boardings = x.boardings := rfl
@[simp] theorem Group.onTag_eject (x : Group) (k : Nat) (f : Tag → Tag) : (x.onTag k f).eject = x.eject := rfl
@[simp] theorem Group.onTag_step (x : Group) (k : Nat) (f : Tag → Tag) : (x.onTag k f).step = x.step := rfl
@[simp] theorem Group.onTag_frozenSlot (x : Group) (k : Nat) (f : Tag → Tag) : (x.onTag k f).frozenSlot = x.frozenSlot := rfl
@[simp] theorem Group.onTag_frozenRegion (x : Group) (k : Nat) (f : Tag → Tag) : (x.onTag k f).frozenRegion = x.frozenRegion := rfl
@[simp] theorem Group.onTag_parent (x : Group) (k : Nat) (f : Tag → Tag) : (x.onTag k f).parent = x.parent := rfl
@[simp] theorem Group.onTag_lastIssue (x : Group) (k : Nat) (f : Tag → Tag) : (x.onTag k f).lastIssue = x.lastIssue := rfl
@[simp] theorem Group.onTag_skip (x : Group) (k : Nat) (f : Tag → Tag) : (x.onTag k f).skip = x.skip := rfl

@[simp] theorem Group.setV_gid (x : Group) (n l v : Nat) : (x.setV n l v).gid = x.gid := rfl
@[simp] theorem Group.setV_slot (x : Group) (n l v : Nat) : (x.setV n l v).slot = x.slot := rfl
@[simp] theorem Group.setV_pipe (x : Group) (n l v : Nat) : (x.setV n l v).pipe = x.pipe := rfl
@[simp] theorem Group.setV_stamp (x : Group) (n l v : Nat) : (x.setV n l v).stamp = x.stamp := rfl
@[simp] theorem Group.setV_uid (x : Group) (n l v : Nat) : (x.setV n l v).uid = x.uid := rfl
@[simp] theorem Group.setV_window (x : Group) (n l v : Nat) : (x.setV n l v).window = x.window := rfl
@[simp] theorem Group.setV_s (x : Group) (n l v : Nat) : (x.setV n l v).s = x.s := rfl
@[simp] theorem Group.setV_lanes (x : Group) (n l v : Nat) : (x.setV n l v).lanes = x.lanes := rfl
@[simp] theorem Group.setV_masks (x : Group) (n l v : Nat) : (x.setV n l v).masks = x.masks := rfl
@[simp] theorem Group.setV_opid (x : Group) (n l v : Nat) : (x.setV n l v).opid = x.opid := rfl
@[simp] theorem Group.setV_tenant (x : Group) (n l v : Nat) : (x.setV n l v).tenant = x.tenant := rfl
@[simp] theorem Group.setV_rows (x : Group) (n l v : Nat) : (x.setV n l v).rows = x.rows := rfl
@[simp] theorem Group.setV_tileh (x : Group) (n l v : Nat) : (x.setV n l v).tileh = x.tileh := rfl
@[simp] theorem Group.setV_tile (x : Group) (n l v : Nat) : (x.setV n l v).tile = x.tile := rfl
@[simp] theorem Group.setV_tileTag (x : Group) (n l v : Nat) : (x.setV n l v).tileTag = x.tileTag := rfl
@[simp] theorem Group.setV_tileFired (x : Group) (n l v : Nat) : (x.setV n l v).tileFired = x.tileFired := rfl
@[simp] theorem Group.setV_tileOrder (x : Group) (n l v : Nat) : (x.setV n l v).tileOrder = x.tileOrder := rfl
@[simp] theorem Group.setV_fpctl (x : Group) (n l v : Nat) : (x.setV n l v).fpctl = x.fpctl := rfl
@[simp] theorem Group.setV_fpstat (x : Group) (n l v : Nat) : (x.setV n l v).fpstat = x.fpstat := rfl
@[simp] theorem Group.setV_tags (x : Group) (n l v : Nat) : (x.setV n l v).tags = x.tags := rfl
@[simp] theorem Group.setV_current (x : Group) (n l v : Nat) : (x.setV n l v).current = x.current := rfl
@[simp] theorem Group.setV_turn (x : Group) (n l v : Nat) : (x.setV n l v).turn = x.turn := rfl
@[simp] theorem Group.setV_idem (x : Group) (n l v : Nat) : (x.setV n l v).idem = x.idem := rfl
@[simp] theorem Group.setV_seqno (x : Group) (n l v : Nat) : (x.setV n l v).seqno = x.seqno := rfl
@[simp] theorem Group.setV_ride (x : Group) (n l v : Nat) : (x.setV n l v).ride = x.ride := rfl
@[simp] theorem Group.setV_boardings (x : Group) (n l v : Nat) : (x.setV n l v).boardings = x.boardings := rfl
@[simp] theorem Group.setV_eject (x : Group) (n l v : Nat) : (x.setV n l v).eject = x.eject := rfl
@[simp] theorem Group.setV_step (x : Group) (n l v : Nat) : (x.setV n l v).step = x.step := rfl
@[simp] theorem Group.setV_frozenSlot (x : Group) (n l v : Nat) : (x.setV n l v).frozenSlot = x.frozenSlot := rfl
@[simp] theorem Group.setV_frozenRegion (x : Group) (n l v : Nat) : (x.setV n l v).frozenRegion = x.frozenRegion := rfl
@[simp] theorem Group.setV_parent (x : Group) (n l v : Nat) : (x.setV n l v).parent = x.parent := rfl
@[simp] theorem Group.setV_lastIssue (x : Group) (n l v : Nat) : (x.setV n l v).lastIssue = x.lastIssue := rfl
@[simp] theorem Group.setV_skip (x : Group) (n l v : Nat) : (x.setV n l v).skip = x.skip := rfl

@[simp] theorem Group.wrPred_gid (x : Group) (c : Ctx) (pd : Option (Fin 15)) (f : Nat → Bool) : (x.wrPred c pd f).gid = x.gid := rfl
@[simp] theorem Group.wrPred_slot (x : Group) (c : Ctx) (pd : Option (Fin 15)) (f : Nat → Bool) : (x.wrPred c pd f).slot = x.slot := rfl
@[simp] theorem Group.wrPred_pipe (x : Group) (c : Ctx) (pd : Option (Fin 15)) (f : Nat → Bool) : (x.wrPred c pd f).pipe = x.pipe := rfl
@[simp] theorem Group.wrPred_stamp (x : Group) (c : Ctx) (pd : Option (Fin 15)) (f : Nat → Bool) : (x.wrPred c pd f).stamp = x.stamp := rfl
@[simp] theorem Group.wrPred_uid (x : Group) (c : Ctx) (pd : Option (Fin 15)) (f : Nat → Bool) : (x.wrPred c pd f).uid = x.uid := rfl
@[simp] theorem Group.wrPred_window (x : Group) (c : Ctx) (pd : Option (Fin 15)) (f : Nat → Bool) : (x.wrPred c pd f).window = x.window := rfl
@[simp] theorem Group.wrPred_v (x : Group) (c : Ctx) (pd : Option (Fin 15)) (f : Nat → Bool) : (x.wrPred c pd f).v = x.v := rfl
@[simp] theorem Group.wrPred_badV (x : Group) (c : Ctx) (pd : Option (Fin 15)) (f : Nat → Bool) : (x.wrPred c pd f).badV = x.badV := rfl
@[simp] theorem Group.wrPred_s (x : Group) (c : Ctx) (pd : Option (Fin 15)) (f : Nat → Bool) : (x.wrPred c pd f).s = x.s := rfl
@[simp] theorem Group.wrPred_masks (x : Group) (c : Ctx) (pd : Option (Fin 15)) (f : Nat → Bool) : (x.wrPred c pd f).masks = x.masks := rfl
@[simp] theorem Group.wrPred_opid (x : Group) (c : Ctx) (pd : Option (Fin 15)) (f : Nat → Bool) : (x.wrPred c pd f).opid = x.opid := rfl
@[simp] theorem Group.wrPred_tenant (x : Group) (c : Ctx) (pd : Option (Fin 15)) (f : Nat → Bool) : (x.wrPred c pd f).tenant = x.tenant := rfl
@[simp] theorem Group.wrPred_rows (x : Group) (c : Ctx) (pd : Option (Fin 15)) (f : Nat → Bool) : (x.wrPred c pd f).rows = x.rows := rfl
@[simp] theorem Group.wrPred_tileh (x : Group) (c : Ctx) (pd : Option (Fin 15)) (f : Nat → Bool) : (x.wrPred c pd f).tileh = x.tileh := rfl
@[simp] theorem Group.wrPred_tile (x : Group) (c : Ctx) (pd : Option (Fin 15)) (f : Nat → Bool) : (x.wrPred c pd f).tile = x.tile := rfl
@[simp] theorem Group.wrPred_tileTag (x : Group) (c : Ctx) (pd : Option (Fin 15)) (f : Nat → Bool) : (x.wrPred c pd f).tileTag = x.tileTag := rfl
@[simp] theorem Group.wrPred_tileFired (x : Group) (c : Ctx) (pd : Option (Fin 15)) (f : Nat → Bool) : (x.wrPred c pd f).tileFired = x.tileFired := rfl
@[simp] theorem Group.wrPred_tileOrder (x : Group) (c : Ctx) (pd : Option (Fin 15)) (f : Nat → Bool) : (x.wrPred c pd f).tileOrder = x.tileOrder := rfl
@[simp] theorem Group.wrPred_fpctl (x : Group) (c : Ctx) (pd : Option (Fin 15)) (f : Nat → Bool) : (x.wrPred c pd f).fpctl = x.fpctl := rfl
@[simp] theorem Group.wrPred_fpstat (x : Group) (c : Ctx) (pd : Option (Fin 15)) (f : Nat → Bool) : (x.wrPred c pd f).fpstat = x.fpstat := rfl
@[simp] theorem Group.wrPred_tags (x : Group) (c : Ctx) (pd : Option (Fin 15)) (f : Nat → Bool) : (x.wrPred c pd f).tags = x.tags := rfl
@[simp] theorem Group.wrPred_current (x : Group) (c : Ctx) (pd : Option (Fin 15)) (f : Nat → Bool) : (x.wrPred c pd f).current = x.current := rfl
@[simp] theorem Group.wrPred_turn (x : Group) (c : Ctx) (pd : Option (Fin 15)) (f : Nat → Bool) : (x.wrPred c pd f).turn = x.turn := rfl
@[simp] theorem Group.wrPred_idem (x : Group) (c : Ctx) (pd : Option (Fin 15)) (f : Nat → Bool) : (x.wrPred c pd f).idem = x.idem := rfl
@[simp] theorem Group.wrPred_seqno (x : Group) (c : Ctx) (pd : Option (Fin 15)) (f : Nat → Bool) : (x.wrPred c pd f).seqno = x.seqno := rfl
@[simp] theorem Group.wrPred_ride (x : Group) (c : Ctx) (pd : Option (Fin 15)) (f : Nat → Bool) : (x.wrPred c pd f).ride = x.ride := rfl
@[simp] theorem Group.wrPred_boardings (x : Group) (c : Ctx) (pd : Option (Fin 15)) (f : Nat → Bool) : (x.wrPred c pd f).boardings = x.boardings := rfl
@[simp] theorem Group.wrPred_eject (x : Group) (c : Ctx) (pd : Option (Fin 15)) (f : Nat → Bool) : (x.wrPred c pd f).eject = x.eject := rfl
@[simp] theorem Group.wrPred_step (x : Group) (c : Ctx) (pd : Option (Fin 15)) (f : Nat → Bool) : (x.wrPred c pd f).step = x.step := rfl
@[simp] theorem Group.wrPred_frozenSlot (x : Group) (c : Ctx) (pd : Option (Fin 15)) (f : Nat → Bool) : (x.wrPred c pd f).frozenSlot = x.frozenSlot := rfl
@[simp] theorem Group.wrPred_frozenRegion (x : Group) (c : Ctx) (pd : Option (Fin 15)) (f : Nat → Bool) : (x.wrPred c pd f).frozenRegion = x.frozenRegion := rfl
@[simp] theorem Group.wrPred_parent (x : Group) (c : Ctx) (pd : Option (Fin 15)) (f : Nat → Bool) : (x.wrPred c pd f).parent = x.parent := rfl
@[simp] theorem Group.wrPred_lastIssue (x : Group) (c : Ctx) (pd : Option (Fin 15)) (f : Nat → Bool) : (x.wrPred c pd f).lastIssue = x.lastIssue := rfl
@[simp] theorem Group.wrPred_skip (x : Group) (c : Ctx) (pd : Option (Fin 15)) (f : Nat → Bool) : (x.wrPred c pd f).skip = x.skip := rfl

@[simp] theorem Group.mergeFlags_gid (x : Group) (f : Flags) : (x.mergeFlags f).gid = x.gid := rfl
@[simp] theorem Group.mergeFlags_slot (x : Group) (f : Flags) : (x.mergeFlags f).slot = x.slot := rfl
@[simp] theorem Group.mergeFlags_pipe (x : Group) (f : Flags) : (x.mergeFlags f).pipe = x.pipe := rfl
@[simp] theorem Group.mergeFlags_stamp (x : Group) (f : Flags) : (x.mergeFlags f).stamp = x.stamp := rfl
@[simp] theorem Group.mergeFlags_uid (x : Group) (f : Flags) : (x.mergeFlags f).uid = x.uid := rfl
@[simp] theorem Group.mergeFlags_window (x : Group) (f : Flags) : (x.mergeFlags f).window = x.window := rfl
@[simp] theorem Group.mergeFlags_v (x : Group) (f : Flags) : (x.mergeFlags f).v = x.v := rfl
@[simp] theorem Group.mergeFlags_badV (x : Group) (f : Flags) : (x.mergeFlags f).badV = x.badV := rfl
@[simp] theorem Group.mergeFlags_s (x : Group) (f : Flags) : (x.mergeFlags f).s = x.s := rfl
@[simp] theorem Group.mergeFlags_lanes (x : Group) (f : Flags) : (x.mergeFlags f).lanes = x.lanes := rfl
@[simp] theorem Group.mergeFlags_masks (x : Group) (f : Flags) : (x.mergeFlags f).masks = x.masks := rfl
@[simp] theorem Group.mergeFlags_opid (x : Group) (f : Flags) : (x.mergeFlags f).opid = x.opid := rfl
@[simp] theorem Group.mergeFlags_tenant (x : Group) (f : Flags) : (x.mergeFlags f).tenant = x.tenant := rfl
@[simp] theorem Group.mergeFlags_rows (x : Group) (f : Flags) : (x.mergeFlags f).rows = x.rows := rfl
@[simp] theorem Group.mergeFlags_tileh (x : Group) (f : Flags) : (x.mergeFlags f).tileh = x.tileh := rfl
@[simp] theorem Group.mergeFlags_tile (x : Group) (f : Flags) : (x.mergeFlags f).tile = x.tile := rfl
@[simp] theorem Group.mergeFlags_tileTag (x : Group) (f : Flags) : (x.mergeFlags f).tileTag = x.tileTag := rfl
@[simp] theorem Group.mergeFlags_tileFired (x : Group) (f : Flags) : (x.mergeFlags f).tileFired = x.tileFired := rfl
@[simp] theorem Group.mergeFlags_tileOrder (x : Group) (f : Flags) : (x.mergeFlags f).tileOrder = x.tileOrder := rfl
@[simp] theorem Group.mergeFlags_fpctl (x : Group) (f : Flags) : (x.mergeFlags f).fpctl = x.fpctl := rfl
@[simp] theorem Group.mergeFlags_tags (x : Group) (f : Flags) : (x.mergeFlags f).tags = x.tags := rfl
@[simp] theorem Group.mergeFlags_current (x : Group) (f : Flags) : (x.mergeFlags f).current = x.current := rfl
@[simp] theorem Group.mergeFlags_turn (x : Group) (f : Flags) : (x.mergeFlags f).turn = x.turn := rfl
@[simp] theorem Group.mergeFlags_idem (x : Group) (f : Flags) : (x.mergeFlags f).idem = x.idem := rfl
@[simp] theorem Group.mergeFlags_seqno (x : Group) (f : Flags) : (x.mergeFlags f).seqno = x.seqno := rfl
@[simp] theorem Group.mergeFlags_ride (x : Group) (f : Flags) : (x.mergeFlags f).ride = x.ride := rfl
@[simp] theorem Group.mergeFlags_boardings (x : Group) (f : Flags) : (x.mergeFlags f).boardings = x.boardings := rfl
@[simp] theorem Group.mergeFlags_eject (x : Group) (f : Flags) : (x.mergeFlags f).eject = x.eject := rfl
@[simp] theorem Group.mergeFlags_step (x : Group) (f : Flags) : (x.mergeFlags f).step = x.step := rfl
@[simp] theorem Group.mergeFlags_frozenSlot (x : Group) (f : Flags) : (x.mergeFlags f).frozenSlot = x.frozenSlot := rfl
@[simp] theorem Group.mergeFlags_frozenRegion (x : Group) (f : Flags) : (x.mergeFlags f).frozenRegion = x.frozenRegion := rfl
@[simp] theorem Group.mergeFlags_parent (x : Group) (f : Flags) : (x.mergeFlags f).parent = x.parent := rfl
@[simp] theorem Group.mergeFlags_lastIssue (x : Group) (f : Flags) : (x.mergeFlags f).lastIssue = x.lastIssue := rfl
@[simp] theorem Group.mergeFlags_skip (x : Group) (f : Flags) : (x.mergeFlags f).skip = x.skip := rfl

@[simp] theorem Lane.acquire_live (k : Lane) (v : Nat) : (k.acquire v).live = k.live := rfl
@[simp] theorem Lane.acquire_pc (k : Lane) (v : Nat) : (k.acquire v).pc = k.pc := rfl
@[simp] theorem Lane.acquire_mode (k : Lane) (v : Nat) : (k.acquire v).mode = k.mode := rfl
@[simp] theorem Lane.acquire_pred (k : Lane) (v : Nat) : (k.acquire v).pred = k.pred := rfl
@[simp] theorem Lane.acquire_traps (k : Lane) (v : Nat) : (k.acquire v).traps = k.traps := rfl
@[simp] theorem Lane.acquire_xs (k : Lane) (v : Nat) : (k.acquire v).xs = k.xs := rfl
@[simp] theorem Lane.acquire_xh (k : Lane) (v : Nat) : (k.acquire v).xh = k.xh := rfl
@[simp] theorem Lane.acquire_p (k : Lane) (v : Nat) : (k.acquire v).p = k.p := rfl
@[simp] theorem Lane.acquire_tx (k : Lane) (v : Nat) : (k.acquire v).tx = k.tx := rfl
@[simp] theorem Lane.acquire_wait (k : Lane) (v : Nat) : (k.acquire v).wait = k.wait := rfl
@[simp] theorem Lane.acquire_halted (k : Lane) (v : Nat) : (k.acquire v).halted = k.halted := rfl
@[simp] theorem Lane.acquire_pend (k : Lane) (v : Nat) : (k.acquire v).pend = k.pend := rfl
@[simp] theorem Lane.acquire_budget (k : Lane) (v : Nat) : (k.acquire v).budget = k.budget := rfl
@[simp] theorem Lane.acquire_startCheck (k : Lane) (v : Nat) : (k.acquire v).startCheck = k.startCheck := rfl

@[simp] theorem Lane.setPred_live (k : Lane) (pd : Option (Fin 15)) (v : Bool) : (k.setPred pd v).live = k.live := by
  unfold Lane.setPred; split <;> rfl
@[simp] theorem Lane.setPred_pc (k : Lane) (pd : Option (Fin 15)) (v : Bool) : (k.setPred pd v).pc = k.pc := by
  unfold Lane.setPred; split <;> rfl
@[simp] theorem Lane.setPred_mode (k : Lane) (pd : Option (Fin 15)) (v : Bool) : (k.setPred pd v).mode = k.mode := by
  unfold Lane.setPred; split <;> rfl
@[simp] theorem Lane.setPred_traps (k : Lane) (pd : Option (Fin 15)) (v : Bool) : (k.setPred pd v).traps = k.traps := by
  unfold Lane.setPred; split <;> rfl
@[simp] theorem Lane.setPred_xs (k : Lane) (pd : Option (Fin 15)) (v : Bool) : (k.setPred pd v).xs = k.xs := by
  unfold Lane.setPred; split <;> rfl
@[simp] theorem Lane.setPred_xh (k : Lane) (pd : Option (Fin 15)) (v : Bool) : (k.setPred pd v).xh = k.xh := by
  unfold Lane.setPred; split <;> rfl
@[simp] theorem Lane.setPred_c (k : Lane) (pd : Option (Fin 15)) (v : Bool) : (k.setPred pd v).c = k.c := by
  unfold Lane.setPred; split <;> rfl
@[simp] theorem Lane.setPred_h (k : Lane) (pd : Option (Fin 15)) (v : Bool) : (k.setPred pd v).h = k.h := by
  unfold Lane.setPred; split <;> rfl
@[simp] theorem Lane.setPred_p (k : Lane) (pd : Option (Fin 15)) (v : Bool) : (k.setPred pd v).p = k.p := by
  unfold Lane.setPred; split <;> rfl
@[simp] theorem Lane.setPred_tx (k : Lane) (pd : Option (Fin 15)) (v : Bool) : (k.setPred pd v).tx = k.tx := by
  unfold Lane.setPred; split <;> rfl
@[simp] theorem Lane.setPred_wait (k : Lane) (pd : Option (Fin 15)) (v : Bool) : (k.setPred pd v).wait = k.wait := by
  unfold Lane.setPred; split <;> rfl
@[simp] theorem Lane.setPred_halted (k : Lane) (pd : Option (Fin 15)) (v : Bool) : (k.setPred pd v).halted = k.halted := by
  unfold Lane.setPred; split <;> rfl
@[simp] theorem Lane.setPred_pend (k : Lane) (pd : Option (Fin 15)) (v : Bool) : (k.setPred pd v).pend = k.pend := by
  unfold Lane.setPred; split <;> rfl
@[simp] theorem Lane.setPred_budget (k : Lane) (pd : Option (Fin 15)) (v : Bool) : (k.setPred pd v).budget = k.budget := by
  unfold Lane.setPred; split <;> rfl
@[simp] theorem Lane.setPred_startCheck (k : Lane) (pd : Option (Fin 15)) (v : Bool) : (k.setPred pd v).startCheck = k.startCheck := by
  unfold Lane.setPred; split <;> rfl

end Sys2Proof.Machine
end

