-- ==== Sys2Proof/Laws/Issue.lean ====
section
/-!
SUPPORT. What an issue does, once for all instructions: the end of an issue changes only what every issue counts, and an
instruction that can issue is its body followed by that end.
-/
namespace Sys2Proof.Machine

open Sys2Proof

/-! ### Lists of lanes -/

theorem getElem?_mapIdxFrom {α β : Type} (f : Nat → α → β) (i l : Nat) (xs : List α) :
    (mapIdxFrom f i xs)[l]? = xs[l]?.map (f (i + l)) := by
  induction xs generalizing i l with
  | nil => simp [mapIdxFrom]
  | cons a r ih =>
    cases l with
    | zero => simp [mapIdxFrom]
    | succ l => simp [mapIdxFrom, ih, Nat.add_assoc, Nat.add_comm 1 l]

/-- A lane of a group after some lanes have changed. A number that names no lane still names none. -/
theorem Group.lane_onLanes (x : Group) (ls : List Nat) (f : Nat → Lane → Lane) (l : Nat) :
    (x.onLanes ls f).lane l = if l ∈ ls ∧ l < x.lanes.length then f l (x.lane l) else x.lane l := by
  simp only [Group.onLanes, Group.lane, getElem?_mapIdxFrom]
  by_cases hl : l < x.lanes.length
  · simp [hl]
  · simp [hl]

theorem Group.lt_of_live {x : Group} {l : Nat} (h : (x.lane l).live = true) : l < x.lanes.length := by
  apply Classical.byContradiction
  intro hl
  simp [Group.lane, List.getElem?_eq_none (by omega : x.lanes.length ≤ l), Lane.empty] at h

theorem Group.mem_live {x : Group} {l : Nat} : l ∈ x.live ↔ l < 32 ∧ (x.lane l).live = true := by
  simp [Group.live]

theorem lanesOf_lt {m l : Nat} (h : l ∈ lanesOf m) : l < 32 := by
  simp [lanesOf] at h; exact h.1

/-- What a PC set named by the latch is (R81): the latch's core, group and lanes. -/
theorem State.ctx?_spec {s : State} {c : Ctx} (h : s.ctx? = some c) :
    ∃ i, s.cur = some i ∧ c.core = i.core ∧ c.gid = i.gid ∧ c.set = lanesOf i.lanes ∧ c.set ≠ [] ∧
      ∀ l ∈ c.act, l ∈ c.set := by
  unfold State.ctx? at h
  split at h
  · cases h
  · rename_i i hi
    dsimp only at h
    split at h
    · cases h
    · rename_i l r hl
      cases h
      exact ⟨i, hi, rfl, rfl, rfl, by simp [hl], fun k hk => (List.mem_filter.mp hk).1⟩

/-! ### The end of an issue -/

theorem Group.countTurn_uncounted (x : Group) (set : List Nat) (was : Nat) :
    (x.countTurn set was).uncounted = x.uncounted ∧ (x.countTurn set was).seqno = x.seqno := by
  unfold Group.countTurn
  constructor <;> split <;> rfl

theorem Group.passTurn_uncounted (x : Group) (was : Nat) :
    (x.passTurn was).uncounted = x.uncounted ∧ (x.passTurn was).seqno = x.seqno := by
  unfold Group.passTurn
  constructor <;> (dsimp only; repeat' split) <;> rfl

/-- A wait that the group's other lanes may end by arriving too (R87, R92). -/
def Wait.joins : Wait → Bool
  | .waitm _ => true
  | .cbar _ _ _ => true
  | .kbar _ _ _ => true
  | .cred _ _ _ _ _ _ _ _ => true
  | _ => false

theorem Group.not_deadlocked {x : Group} {l : Nat} (hl : l ∈ x.live) (hw : (x.lane l).wait.joins = false) : x.deadlocked = false := by
  unfold Group.deadlocked
  simp only [Bool.and_eq_false_iff]
  right
  rw [List.all_eq_false]
  refine ⟨l, hl, ?_⟩
  cases h : (x.lane l).wait <;> simp_all [Wait.joins]

theorem Group.countsAt_none {x : Group} {l : Nat} {same : Wait → Option Nat} (hl : l ∈ x.live)
    (hs : same (x.lane l).wait = none) : x.countsAt same = none := by
  unfold Group.countsAt
  have : (x.live.filterMap fun l => same (x.lane l).wait).length < x.live.length := by
    generalize x.live = ls at hl
    induction ls with
    | nil => cases hl
    | cons a r ih =>
      have le := List.length_filterMap_le (fun l => same (x.lane l).wait) r
      cases List.mem_cons.mp hl with
      | inl h => subst h; rw [List.filterMap_cons, hs, List.length_cons]; exact Nat.lt_succ_of_le le
      | inr h => have := ih h; rw [List.filterMap_cons]; split <;> simp only [List.length_cons] <;> omega
  dsimp only
  rw [if_neg (by omega)]

/-- A group with a lane that waits for none of the others arrives at no barrier. -/
theorem State.arriveBarrier_none {s : State} {n g l : Nat} {x : Group} (hx : s.group? n g = some x) (hl : l ∈ x.live)
    (hw : (x.lane l).wait.joins = false) : s.arriveBarrier n g = s := by
  unfold State.arriveBarrier
  simp only [hx]
  split
  · rfl
  · split
    · rw [Group.countsAt_none hl (by cases h : (x.lane l).wait <;> simp_all [Wait.joins])]
    · split
      · rfl
      · rw [Group.countsAt_none hl (by cases h : (x.lane l).wait <;> simp_all [Wait.joins])]
    · unfold State.arriveCred
      split
      · dsimp only
        rw [Group.countsAt_none hl (by cases h : (x.lane l).wait <;> simp_all [Wait.joins])]
        simp
      · rfl

theorem Map.find?_map {α β : Type} (f : α → β) (m : Map α) (k : Nat) :
    Map.find? (m.map fun e => (e.1, f e.2)) k = (m.find? k).map f := by
  induction m with
  | nil => rfl
  | cons e r ih =>
    obtain ⟨j, b⟩ := e
    simp only [List.map_cons, Map.find?]
    split <;> simp [ih]

theorem State.core_clearSkip (s : State) (n : Nat) :
    s.clearSkip.core n = { s.core n with groups := (s.core n).groups.map fun g => (g.1, { g.2 with skip := 0 }) } := by
  have h := Map.find?_map (fun k : Core =>
    { k with groups := k.groups.map fun (g : Nat × Group) => (g.1, { g.2 with skip := 0 }) }) s.cores n
  simp only [State.core, State.clearSkip]
  rw [h]
  cases s.cores.find? n <;> rfl

theorem State.group?_clearSkip (s : State) (n g : Nat) :
    s.clearSkip.group? n g = (s.group? n g).map fun x => { x with skip := 0 } := by
  have h := Map.find?_map (fun x : Group => { x with skip := 0 }) (s.core n).groups g
  simp only [State.group?, State.core_clearSkip]
  exact h

/-- A group put in its place, the lanes looked at again and the latch set change only what every issue counts. -/
theorem State.counted_follows {s : State} {c : Ctx} {x z : Group} (q : Option Issue) (hx : s.group? c.core c.gid = some x)
    (hu : z.uncounted = x.uncounted) (hn : z.seqno = (x.seqno + 1) % 2 ^ 32) :
    Follows s { (s.setGroup c.core c.gid z).clearSkip with cur := q } c := by
  have hg : s.grp c = x := by simp [State.grp, State.group, hx]
  refine ⟨?_, ?_, ?_, ?_, rfl⟩
  · show (((s.setGroup c.core c.gid z).clearSkip.group? c.core c.gid).getD Group.empty).uncounted = _
    rw [State.group?_clearSkip, State.group?_setGroup_self, hg]
    exact hu
  · show (((s.setGroup c.core c.gid z).clearSkip.group? c.core c.gid).getD Group.empty).seqno = _
    rw [State.group?_clearSkip, State.group?_setGroup_self, hg]
    exact hn
  · intro core g hne
    show (s.setGroup c.core c.gid z).clearSkip.group? core g = _
    rw [State.group?_clearSkip, State.group?_setGroup_ne _ _ _ _ _ _ hne]
  · intro core
    show ({ ((s.setGroup c.core c.gid z).clearSkip).core core with
        groups := [], credits := (s.core core).credits, creditClk := (s.core core).creditClk } : Core) = _ ∧
      (core ≠ c.core → (((s.setGroup c.core c.gid z).clearSkip).core core).credits = _ ∧
        (((s.setGroup c.core c.gid z).clearSkip).core core).creditClk = _)
    rw [State.core_clearSkip]
    by_cases h : core = c.core
    · subst h; simp [State.setGroup]
    · simp [State.setGroup, State.core_onCore_ne _ _ _ _ h]

theorem State.setGroup_setGroup (s : State) (n g : Nat) (x y : Group) :
    (s.setGroup n g x).setGroup n g y = s.setGroup n g y := by
  have h {α : Type} (m : Map α) (k : Nat) (a b : α) : (m.put k a).put k b = m.put k b := by
    induction m with
    | nil => simp [Map.put]
    | cons e r ih =>
      obtain ⟨j, d⟩ := e
      by_cases h1 : k < j
      · simp [Map.put, h1]
      · by_cases h2 : k = j
        · subst h2; simp [Map.put]
        · simp [Map.put, h1, h2, ih]
  simp [State.setGroup, State.onCore, State.setCore, State.core, h]

/-- A group that is in no deadlock stays as it is. -/
theorem Group.raiseDeadlock_none {x : Group} (h : x.deadlocked = false) : x.raiseDeadlock = x := by simp [Group.raiseDeadlock, h]

/-- What an issue spends is counted (R85). -/
theorem State.spend_cases {s : State} {c : Ctx} {x : Group} (hx : s.group? c.core c.gid = some x) :
    s.spend c = s ∨ ∃ m n, s.spend c =
      (s.onCore c.core fun k => { k with credits := m, creditClk := n }).setGroup c.core c.gid { x with lastIssue := some s.clk } := by
  unfold State.spend
  split
  · exact .inl rfl
  · rename_i i _
    split
    · exact .inl rfl
    · refine .inr ⟨i.credits, s.clk, ?_⟩
      have h : (s.onCore c.core fun k => { k with credits := i.credits, creditClk := s.clk }).group? c.core c.gid = some x := by
        simpa [State.group?] using hx
      simp only [State.onGrp, State.onGroup_of_some _ h]

/-- The credits of the issuing core and the last issue of the issuing group may change before what an issue counts does. -/
theorem Follows.of_spent {s u t : State} {c : Ctx} {x : Group} {m : Map (BitVec 7)} {n : Nat} {li : Option Nat}
    (hx : s.group? c.core c.gid = some x)
    (hu : u = (s.onCore c.core fun k => { k with credits := m, creditClk := n }).setGroup c.core c.gid { x with lastIssue := li })
    (h : Follows u t c) : Follows s t c := by
  have hg : s.grp c = x := by simp [State.grp, State.group, hx]
  have hug : u.grp c = { x with lastIssue := li } := by
    rw [hu]; simp [State.grp, State.group, State.group?_setGroup_self]
  refine ⟨?_, ?_, ?_, ?_, ?_⟩
  · rw [h.group, hug, hg]; rfl
  · rw [h.seqno, hug, hg]
  · intro core g hne
    rw [h.others core g hne, hu, State.group?_setGroup_ne _ _ _ _ _ _ hne]
    by_cases hc : core = c.core
    · subst hc; simp [State.group?]
    · simp [State.group?, State.core_onCore_ne _ _ _ _ hc]
  · intro core
    have h1 := h.cores core
    by_cases hc : core = c.core
    · subst hc
      have h2 := h1.1
      rw [hu] at h2
      simp only [State.setGroup, State.core_onCore_self, Core.mk.injEq] at h2 ⊢
      exact ⟨by simp_all, fun hn => absurd rfl hn⟩
    · have e1 : u.core core = s.core core := by rw [hu]; simp [State.setGroup, State.core_onCore_ne _ _ _ _ hc]
      rw [e1] at h1
      exact h1
  · rw [h.rest, hu]; rfl

/-- The end of an issue after what it spends changes only what every issue counts, if a lane of the group waits for none of the others. -/
theorem State.counts_follow {s : State} {c : Ctx} {l : Nat} {x : Group} (hx : s.group? c.core c.gid = some x)
    (hl : l ∈ x.live) (hw : (x.lane l).wait.joins = false) (go : State → Bool) (was : Nat) (q : State → Option Issue) :
    let u := (s.onGrp c fun x => ({ x with seqno := (x.seqno + 1) % 2 ^ 32 } : Group).raiseDeadlock).arriveBarrier c.core c.gid
    Follows s { (u.onGrp c fun x => let x := x.countTurn c.set was; if go u then x else x.passTurn was).clearSkip with cur := q u } c := by
  let y : Group := { x with seqno := (x.seqno + 1) % 2 ^ 32 }
  have hyl : y.live = x.live := rfl
  have hy : (Group.raiseDeadlock { x with seqno := (x.seqno + 1) % 2 ^ 32 }) = y :=
    Group.raiseDeadlock_none (x := y) (Group.not_deadlocked (l := l) (hyl ▸ hl) hw)
  have h1 : (s.onGrp c fun x => ({ x with seqno := (x.seqno + 1) % 2 ^ 32 } : Group).raiseDeadlock) = s.setGroup c.core c.gid y := by
    simp only [State.onGrp, State.onGroup_of_some _ hx, hy]
  have h2 : (s.setGroup c.core c.gid y).arriveBarrier c.core c.gid = s.setGroup c.core c.gid y :=
    State.arriveBarrier_none (State.group?_setGroup_self ..) (hyl ▸ hl) hw
  dsimp only
  rw [h1, h2]
  simp only [State.onGrp, State.onGroup_of_some _ (State.group?_setGroup_self s c.core c.gid y), State.setGroup_setGroup]
  have hc := Group.countTurn_uncounted y c.set was
  have hp := Group.passTurn_uncounted (y.countTurn c.set was) was
  refine State.counted_follows _ hx ?_ ?_
  · split
    · exact hc.1
    · exact hp.1.trans hc.1
  · split
    · exact hc.2
    · exact hp.2.trans hc.2

/-- The end of an issue changes only what every issue counts, if a lane of the group waits for none of the others. -/
theorem State.finish_follows {s : State} {c : Ctx} {l : Nat} {x : Group} (hx : s.group? c.core c.gid = some x)
    (hl : l ∈ x.live) (hw : (x.lane l).wait.joins = false) : Follows s (s.finish c) c := by
  unfold State.finish
  dsimp only
  obtain h | ⟨m, n, h⟩ := State.spend_cases hx
  · rw [h]
    exact State.counts_follow hx hl hw (fun u => _ && (u.grp c).pairGoes c) _ fun u => _
  · refine Follows.of_spent (li := some s.clk) hx h ?_
    have hx' : (s.spend c).group? c.core c.gid = some { x with lastIssue := some s.clk } := by
      rw [h, State.group?_setGroup_self]
    exact State.counts_follow hx' hl hw (fun u => _ && (u.grp c).pairGoes c) _ fun u => _

end Sys2Proof.Machine
end

