-- ==== Sys2Proof/Laws/Register.lean ====
section
/-!
SUPPORT. Register results (R54, R62, R74): what a write to a destination field leaves in the registers of a group, and the
completion of every instruction that writes registers of its own group.
-/
namespace Sys2Proof.Machine

open Sys2Proof

/-! ### A group on its way -/

/-- A lane without its clock and horizon. -/
def Lane.unclocked (k : Lane) : Lane := { k with c := 0, h := 0 }

theorem Lane.unclocked_acquire (k : Lane) (v : Nat) : (k.acquire v).unclocked = k.unclocked := by cases k; rfl

theorem length_mapIdxFrom {α β : Type} (f : Nat → α → β) (i : Nat) (xs : List α) : (mapIdxFrom f i xs).length = xs.length := by
  induction xs generalizing i with
  | nil => rfl
  | cons a r ih => simp [mapIdxFrom, ih]

@[simp] theorem Group.length_onLanes (x : Group) (ls : List Nat) (f : Nat → Lane → Lane) :
    (x.onLanes ls f).lanes.length = x.lanes.length := length_mapIdxFrom _ 0 x.lanes

/-- Acquiring copy tags changes only clocks and horizons of lanes (R298, R313). -/
theorem Group.acquireTags_spec (x : Group) (us : List Use) (ls : List Nat) :
    x.acquireTags us ls = { x with lanes := (x.acquireTags us ls).lanes } ∧
      (x.acquireTags us ls).lanes.length = x.lanes.length ∧
      ∀ l, ((x.acquireTags us ls).lane l).unclocked = (x.lane l).unclocked := by
  unfold Group.acquireTags
  induction us generalizing x with
  | nil => exact ⟨rfl, rfl, fun l => rfl⟩
  | cons u us ih =>
    rw [List.foldl_cons]
    split
    · split
      · rename_i v _ _
        obtain ⟨h1, h2, h3⟩ := ih (x.onLanes ls fun _ k => k.acquire v)
        refine ⟨h1, by rw [h2, Group.length_onLanes], fun l => ?_⟩
        rw [h3, Group.lane_onLanes]
        split
        · exact Lane.unclocked_acquire ..
        · rfl
      · exact ih x
    · exact ih x

/-- What a group on its way keeps: everything but its lanes. -/
theorem Group.moved_eq (x : Group) (c : Ctx) (us : List Use) : x.moved c us = { x with lanes := (x.moved c us).lanes } := by
  have h := (Group.acquireTags_spec (x.onLanes c.set fun _ k => { k with wait := .none }) us c.act).1
  unfold Group.moved
  rw [h]; rfl

/-- A lane of a group on its way: a lane of the set stands at the next instruction and waits for nothing; beside its clock
and horizon it is as it was. -/
theorem Group.moved_lane (x : Group) (c : Ctx) (us : List Use) (l : Nat) :
    ((x.moved c us).lane l).unclocked =
      if l ∈ c.set ∧ l < x.lanes.length then { (x.lane l).unclocked with wait := .none, pc := c.next, startCheck := false, again := none }
      else (x.lane l).unclocked := by
  unfold Group.moved
  obtain ⟨h1, h2, h3⟩ := Group.acquireTags_spec (x.onLanes c.set fun _ k => { k with wait := .none }) us c.act
  have h3 := h3 l
  rw [Group.length_onLanes] at h2
  rw [Group.lane_onLanes] at h3
  rw [Group.lane_onLanes, h2]
  generalize (Group.acquireTags _ us c.act).lane l = k at *
  split
  · rename_i h
    rw [if_pos h] at h3
    have h4 : ({ k with pc := c.next, startCheck := false, again := none } : Lane).unclocked = { k.unclocked with pc := c.next, startCheck := false, again := none } := rfl
    rw [h4, h3]; rfl
  · rename_i h
    rw [if_neg h] at h3
    exact h3

/-! ### Instructions that can issue -/

/-- An instruction that can issue is its body and the end of its issue. -/
theorem State.issueWith_ready {s : State} {c : Ctx} {masks : List (Fin 16)} {uses : List Use} {allowed : Ctx → Group → Bool}
    {body : State → Ctx → Issued} (h : CanIssue s c masks uses) (ha : allowed c (s.grp c) = true) :
    s.issueWith masks uses allowed body =
      match body (s.begun c uses) c with
      | .done s' => .next (s'.finish c)
      | .stall => .next (s.skipSet c)
      | .stallAfter s' => .next ((s'.clearSkip.skipSet c).onGrp c fun x => { x with skip := x.skip ||| 2 ^ 32 }) := by
  have hm : masks.any (fun m => decide (12 ≤ m.val)) = false := by
    have := h.maskOk
    simp only [List.all_eq_true, decide_eq_true_eq, List.any_eq_false, decide_eq_true_eq] at this ⊢
    exact fun m hm => by have := this m hm; omega
  unfold State.issueWith
  simp only [h.latched, h.legal, hm, h.inside, ha, h.allowed, h.settled, h.streamed, h.tags, h.parity, Bool.or_self,
    Bool.not_true, Bool.false_eq_true, ↓reduceIte, List.isEmpty_nil, State.begun]
  all_goals
    generalize body _ c = r
    cases r <;> rfl

/-- An instruction that changes only its own group completes wherever it can issue (`f` leaves the lanes of its set live and
waiting for nothing). -/
theorem State.issueWith_group {s : State} {c : Ctx} {masks : List (Fin 16)} {uses : List Use} {allowed : Ctx → Group → Bool}
    {f : Ctx → Group → Group} (h : CanIssue s c masks uses) (ha : allowed c (s.grp c) = true)
    (hf : ∀ x : Group, ∀ l, ((f c x).lane l).live = (x.lane l).live ∧ ((f c x).lane l).wait = (x.lane l).wait) :
    ∃ t, s.issueWith masks uses allowed (fun s c => .done ((s.advance c).onGrp c (f c))) = .next t ∧
      Follows (s.putGrp c (f c ((s.grp c).moved c uses))) t c := by
  obtain ⟨x, hx⟩ := Option.isSome_iff_exists.mp h.resident
  have hg : s.grp c = x := by simp [State.grp, State.group, hx]
  rw [State.issueWith_ready h ha]
  refine ⟨_, rfl, ?_⟩
  have e : (((s.begun c uses).advance c).onGrp c (f c)) = s.putGrp c (f c (x.moved c uses)) := by
    simp only [State.begun, State.advance, State.onGrp, State.onGroup_of_some _ hx,
      State.onGroup_of_some _ (State.group?_setGroup_self ..), State.setGroup_setGroup, State.putGrp, Group.moved]
  rw [e, hg]
  obtain ⟨i, _, _, _, hset, hne, _⟩ := State.ctx?_spec h.latched
  obtain ⟨l, hl⟩ := List.exists_mem_of_ne_nil _ hne
  have hlive : (x.lane l).live = true := by have := h.alive; rw [hg] at this; exact List.all_eq_true.mp this l hl
  have hm := Group.moved_lane x c uses l
  rw [if_pos ⟨hl, Group.lt_of_live hlive⟩] at hm
  refine State.finish_follows (State.group?_setGroup_self ..) (l := l) ?_ ?_
  · have : ((x.moved c uses).lane l).live = (x.lane l).live := by have := congrArg Lane.live hm; exact this
    rw [Group.mem_live, (hf _ l).1, this]
    exact ⟨lanesOf_lt (hset ▸ hl), hlive⟩
  · rw [(hf _ l).2]
    have h : ((x.moved c uses).lane l).wait = .none := by have := congrArg Lane.wait hm; exact this
    rw [h]
    rfl

/-! ### Writing a destination -/

theorem Group.put32_v (x : Group) (n : Fin 640) (l v : Nat) (h : n.val < x.winsize) : x.put32 (.v n) l v = x.setV n.val l v := by
  simp [Group.put32, h]

theorem Group.winsize_setV (x : Group) (n l v : Nat) : (x.setV n l v).winsize = x.winsize := rfl

theorem mem_destWords {n k : Nat} {wide : Bool} {ls : List Nat} :
    k ∈ destWords n wide ls ↔ (∃ l ∈ ls, k = 32 * n + l) ∨ (wide = true ∧ ∃ l ∈ ls, k = 32 * (n + 1) + l) := by
  cases wide <;> simp [destWords, eq_comm]

/-- A destination of several lanes written one lane after the other. -/
theorem Group.foldl_put_v (n : Fin 640) (wide : Bool) (f : Nat → Nat) (ls : List Nat) (x : Group) (hls : ∀ l ∈ ls, l < 32)
    (hw : n.val + (if wide then 2 else 1) ≤ x.winsize) :
    let y := ls.foldl (fun x l => x.put (.v n) wide l (f l)) x
    (∀ l ∈ ls, sget y.v (32 * n.val + l) = BitVec.ofNat 32 (f l)) ∧
    (wide = true → ∀ l ∈ ls, sget y.v (32 * (n.val + 1) + l) = BitVec.ofNat 32 (f l / 2 ^ 32)) ∧
    (∀ k, k ∉ destWords n.val wide ls → sget y.v k = sget x.v k) ∧
    y = { x with v := y.v, badV := y.badV } := by
  induction ls generalizing x with
  | nil => simp
  | cons a r ih =>
    have ha : a < 32 := hls a (by simp)
    have hr : ∀ l ∈ r, l < 32 := fun l hl => hls l (by simp [hl])
    have notin (i : Nat) (hi : i = 0 ∨ i = 1) (l : Nat) (hl : l < 32) (hlr : l ∉ r) : 32 * (n.val + i) + l ∉ destWords n.val wide r := by
      rw [mem_destWords]
      rintro (⟨b, hb, e⟩ | ⟨_, b, hb, e⟩) <;>
        · have := hr b hb
          exact hlr ((by omega : b = l) ▸ hb)
    obtain ⟨y, hy, hyw, hyv, hye⟩ : ∃ y, x.put (.v n) wide a (f a) = y ∧ y.winsize = x.winsize ∧
        y.v = (if wide then sput (sput x.v (32 * n.val + a) (BitVec.ofNat 32 (f a))) (32 * (n.val + 1) + a) (BitVec.ofNat 32 (f a / 2 ^ 32))
          else sput x.v (32 * n.val + a) (BitVec.ofNat 32 (f a))) ∧ y = { x with v := y.v, badV := y.badV } := by
      cases wide
      · refine ⟨x.setV n.val a (f a), ?_, rfl, rfl, rfl⟩
        simp only [Group.put, Bool.false_eq_true, ↓reduceIte]
        exact Group.put32_v x n a _ (by simp at hw; omega)
      · refine ⟨(x.setV n.val a (f a)).setV (n.val + 1) a (f a / 2 ^ 32), ?_, rfl, rfl, rfl⟩
        simp only [Group.put, ↓reduceIte, Group.put64]
        rw [if_pos (by simp at hw; omega)]
    have h0 : sget y.v (32 * n.val + a) = BitVec.ofNat 32 (f a) := by
      rw [hyv]; split
      · rw [sget_sput_ne _ _ _ _ (by omega), sget_sput_self]
      · simp
    have h1 (hwide : wide = true) : sget y.v (32 * (n.val + 1) + a) = BitVec.ofNat 32 (f a / 2 ^ 32) := by
      rw [hyv, if_pos hwide]; simp
    have h2 (k : Nat) (hk : k ∉ destWords n.val wide [a]) : sget y.v k = sget x.v k := by
      rw [mem_destWords] at hk
      have k0 : k ≠ 32 * n.val + a := fun e => hk (.inl ⟨a, by simp, e⟩)
      rw [hyv]; split
      · rename_i hwide
        have k1 : k ≠ 32 * (n.val + 1) + a := fun e => hk (.inr ⟨hwide, a, by simp, e⟩)
        rw [sget_sput_ne _ _ _ _ k1, sget_sput_ne _ _ _ _ k0]
      · rw [sget_sput_ne _ _ _ _ k0]
    simp only [List.foldl_cons, hy]
    obtain ⟨i1, i2, i3, i4⟩ := ih y hr (by rw [hyw]; exact hw)
    refine ⟨fun l hl => ?_, fun hwide l hl => ?_, fun k hk => ?_, ?_⟩
    · by_cases hlr : l ∈ r
      · exact i1 l hlr
      · obtain rfl : l = a := by simpa [hlr] using hl
        rw [i3 _ (by have := notin 0 (.inl rfl) l ha hlr; rwa [Nat.add_zero] at this), h0]
    · by_cases hlr : l ∈ r
      · exact i2 hwide l hlr
      · obtain rfl : l = a := by simpa [hlr] using hl
        rw [i3 _ (notin 1 (.inr rfl) l ha hlr), h1 hwide]
    · rw [mem_destWords] at hk
      rw [i3 k, h2 k]
      · rw [mem_destWords]
        rintro (⟨b, hb, e⟩ | ⟨hwide, b, hb, e⟩)
        · exact hk (.inl ⟨b, by simp at hb; simp [hb], e⟩)
        · exact hk (.inr ⟨hwide, b, by simp at hb; simp [hb], e⟩)
      · rw [mem_destWords]
        rintro (⟨b, hb, e⟩ | ⟨hwide, b, hb, e⟩)
        · exact hk (.inl ⟨b, by simp [hb], e⟩)
        · exact hk (.inr ⟨hwide, b, by simp [hb], e⟩)
    · rw [i4, hye]

/-- A destination written: the registers of the group after it, and nothing else changed (R54, R62). -/
theorem Group.wr_spec {x : Group} {c : Ctx} {d : Operand} {wide : Bool} (f : Nat → Nat) (hact : ∀ l ∈ c.act, l < 32)
    (hw : (dstW wide d).outside x.winsize = false) :
    Wrote x (x.wr c d wide f) c d wide f ∧
      x.wr c d wide f = { x with v := (x.wr c d wide f).v, s := (x.wr c d wide f).s, badV := (x.wr c d wide f).badV } := by
  cases d with
  | v n =>
    have hw' : n.val + (if wide then 2 else 1) ≤ x.winsize := by
      cases wide <;> simp [dstW, dst32, dst64, Use.outside] at hw ⊢ <;> omega
    obtain ⟨h1, h2, h3, h4⟩ := Group.foldl_put_v n wide f c.act x hact hw'
    have h5 : (c.act.foldl (fun x l => x.put (.v n) wide l (f l)) x).s = x.s := by rw [h4]
    refine ⟨⟨h1, h2, h3, h5⟩, ?_⟩
    simp only [Group.wr, h5]
    exact h4
  | s n =>
    simp only [Group.wr, Wrote]
    by_cases he : c.act = []
    · simp [he]
    · have he' : c.act.isEmpty = false := by simp [he]
      cases wide <;> simp [he', Group.put, Group.put32, Group.put64, he] <;>
        exact fun k hk => sget_sput_ne _ _ _ _ hk
  | none => exact ⟨⟨rfl, rfl⟩, rfl⟩
  | ct n =>
    have h : c.act.foldl (fun x l => x.put (.ct n) wide l (f l)) x = x := by
      induction c.act with
      | nil => rfl
      | cons a r ih => cases wide <;> simpa [Group.put, Group.put32, Group.put64] using ih
    simp [Group.wr, h, Wrote]
  | resv n =>
    have h : c.act.foldl (fun x l => x.put (.resv n) wide l (f l)) x = x := by
      induction c.act with
      | nil => rfl
      | cons a r ih => cases wide <;> simpa [Group.put, Group.put32, Group.put64] using ih
    simp [Group.wr, h, Wrote]
  | const n =>
    have h : c.act.foldl (fun x l => x.put (.const n) wide l (f l)) x = x := by
      induction c.act with
      | nil => rfl
      | cons a r ih => cases wide <;> simpa [Group.put, Group.put32, Group.put64] using ih
    simp [Group.wr, h, Wrote]

/-- What two groups with the same registers say of a destination written. -/
theorem wrote_congr {x x' y y' : Group} {c : Ctx} {d : Operand} {wide : Bool} {f : Nat → Nat} (h : Wrote x y c d wide f)
    (hv : x'.v = x.v) (hs : x'.s = x.s) (gv : y'.v = y.v) (gs : y'.s = y.s) : Wrote x' y' c d wide f := by
  unfold Wrote at *
  rw [hv, hs, gv, gs]
  exact h

/-- Every instruction that writes one destination and changes only its own group completes wherever it can issue. -/
theorem writesReg_of_group {i : Instr} {masks : List (Fin 16)} {uses : List Use} {d : Operand} {wide : Bool} {val : Group → Ctx → Nat → Nat}
    {also F : Ctx → Group → Group}
    (he : ∀ s, exec i s = s.issueWith masks uses (fun _ _ => true) fun s c => .done ((s.advance c).onGrp c (F c))) (hd : dstW wide d ∈ uses)
    (hF : ∀ (c : Ctx) (x : Group), F c (x.moved c uses) = { also c (x.moved c uses) with
      v := ((x.moved c uses).wr c d wide (val x c)).v, s := ((x.moved c uses).wr c d wide (val x c)).s,
      badV := ((x.moved c uses).wr c d wide (val x c)).badV })
    (hk : ∀ c, ∀ x : Group, ∀ l, ((F c x).lane l).live = (x.lane l).live ∧ ((F c x).lane l).wait = (x.lane l).wait) :
    WritesReg i masks uses d wide val also := by
  intro s c h
  obtain ⟨t, ht, hf⟩ := State.issueWith_group (f := F) (allowed := fun _ _ => true) h rfl (hk c)
  have hg : ∀ y, (s.putGrp c y).grp c = y := fun y => by
    simp [State.grp, State.group, State.putGrp]
  have hu := hf.group
  rw [hg] at hu
  have hmv : ((s.grp c).moved c uses).v = (s.grp c).v := by rw [Group.moved_eq]
  have hms : ((s.grp c).moved c uses).s = (s.grp c).s := by rw [Group.moved_eq]
  have hmw : ((s.grp c).moved c uses).winsize = (s.grp c).winsize := by rw [Group.moved_eq]; rfl
  have hact : ∀ l ∈ c.act, l < 32 := fun l hl => by
    obtain ⟨_, _, _, _, hset, _, hsub⟩ := State.ctx?_spec h.latched
    exact lanesOf_lt (hset ▸ hsub l hl)
  have hin : (dstW wide d).outside ((s.grp c).moved c uses).winsize = false := by
    rw [hmw]
    have := h.inside
    rw [List.any_eq_false] at this
    simpa using this _ hd
  have hw := (Group.wr_spec (x := (s.grp c).moved c uses) (val (s.grp c) c) hact hin).1
  have e := hF c (s.grp c)
  have tv : (t.grp c).v = (((s.grp c).moved c uses).wr c d wide (val (s.grp c) c)).v := by
    have := congrArg Group.v hu; rw [e] at this; exact this
  have ts : (t.grp c).s = (((s.grp c).moved c uses).wr c d wide (val (s.grp c) c)).s := by
    have := congrArg Group.s hu; rw [e] at this; exact this
  have tb : (t.grp c).badV = (((s.grp c).moved c uses).wr c d wide (val (s.grp c) c)).badV := by
    have := congrArg Group.badV hu; rw [e] at this; exact this
  refine ⟨t, (he s).trans ht, wrote_congr hw hmv.symm hms.symm tv ts, ?_⟩
  rw [tv, ts, tb, ← e]
  exact hf

end Sys2Proof.Machine
end

