-- ==== Sys2Proof/Tests/Slice0.lean ====
section
/-!
SUPPORT. The model's own tests: words of the spec, ill-formed instructions, single steps on small states, and for every claim with
hypotheses a state and operands that meet them.
-/
namespace Sys2Proof.Tests

set_option Elab.async false

open Machine

/-! ### Words (spec/03 to 21: the encodings that the spec writes out) -/

theorem test_word_nop : decode 0x00007803FFFFFFFFFFC00000#96 = .ok (⟨false, 15⟩, .nop) := by rfl
theorem test_word_bra : decode 0x01000803FFFFC00004000001#96 = .ok (⟨false, 1⟩, .bra ⟨false, .none, .none, 1, 1⟩) := by rfl
theorem test_word_exit : decode 0x0D007803FFFFFFFFFFC00000#96 = .ok (⟨false, 15⟩, .exit) := by rfl
theorem test_word_join : decode 0x05007983FFFFFFF000000000#96 = .ok (⟨false, 15⟩, .join ⟨3, 0, .none, .none, .none, 0⟩) := by rfl
theorem test_word_waitm : decode 0x07007803FFFFFFF000000000#96 = .ok (⟨false, 15⟩, .waitm ⟨0, 0, .none, .none, .none, 0⟩) := by rfl
theorem test_word_iadd : decode 0x230078000500F86FFFC00000#96 =
    .ok (⟨false, 15⟩, .iadd ⟨0, 0, 0, 0, .v 5, .v 3, .const 134, .none, none⟩) := by rfl
theorem test_word_ffma : decode 0x530078400A0100501BC00000#96 =
    .ok (⟨false, 15⟩, .ffma ⟨0, 0, 1, 0, .v 10, .v 4, .v 5, .v 6, none⟩) := by rfl
theorem test_word_lds : decode 0x80007A0005A0803FFC000040#96 =
    .ok (⟨false, 15⟩, .lds ⟨0, 2, 0, 0, 0, .v 5, .s 2, .v 3, .none, 0x40⟩) := by rfl
theorem test_word_lds16 : decode 0x80007C0018FFC0BFFC000000#96 =
    .ok (⟨false, 15⟩, .lds ⟨0, 4, 0, 0, 0, .v 24, .none, .v 11, .none, 0⟩) := by rfl
theorem test_word_tmma : decode 0x9200784E84FFC52B08000000#96 =
    .ok (⟨false, 15⟩, .tmma ⟨0, 0, 1, 3, .s 4, .none, 5, 2, .ct 2⟩) := by rfl
theorem test_word_rhdr : decode 0xA00178000700BFFFFFC00000#96 =
    .ok (⟨false, 15⟩, .rhdr ⟨1, 0, 0, 0, .v 7, .v 2, .none, .none, none⟩) := by rfl
theorem test_word_tkfwd : decode 0xA1002003FF00381FFFC00000#96 =
    .ok (⟨false, 4⟩, .tkfwd ⟨0, 0, 0, 0, .none, .v 0, .const 129, .none, none⟩) := by rfl
theorem test_word_gatek : decode 0xA50208000A06F83FFD800000#96 =
    .ok (⟨false, 1⟩, .gatek ⟨2, 0, 0, 0, .v 10, .v 27, .const 131, .none, some 6⟩) := by rfl
theorem test_word_board : decode 0xA700780004FFFC0000000000#96 =
    .ok (⟨false, 15⟩, .board ⟨0, 0, 0, 0, .v 4, .none, none, 0⟩) := by rfl
theorem test_word_ldg : decode 0xB0007B2406A100AFFC000040#96 =
    .ok (⟨false, 15⟩, .ldg ⟨0, 3, 0, 2, 1, .v 6, .s 4, .v 10, .none, 0x40⟩) := by rfl
theorem test_word_fence : decode 0xB400783FFFFFFFFFFC000000#96 =
    .ok (⟨false, 15⟩, .fenceSc ⟨0, 0, 0, 3, 3, .none, .none, .none, .none, 0⟩) := by rfl
theorem test_word_atom : decode 0xC0097A1814A1802054000010#96 =
    .ok (⟨false, 15⟩, .atom ⟨9, 2, 0, 1, 2, .v 20, .s 6, .v 2, .v 21, 0x10⟩) := by rfl
theorem test_word_acp : decode 0xD0007D000CA100AB04000040#96 =
    .ok (⟨false, 15⟩, .acp ⟨0, 5, 0, 0, 0, .v 12, .s 4, .v 10, .ct 1, 0x40⟩) := by rfl
theorem test_word_acp_p5 : decode 0xD0002D000B0080AB08000000#96 =
    .ok (⟨false, 5⟩, .acp ⟨0, 5, 0, 0, 0, .v 11, .v 2, .v 10, .ct 2, 0⟩) := by rfl
theorem test_word_xmcast : decode 0xD30038004A1184D0001D000F#96 =
    .ok (⟨false, 7⟩, .xmcast ⟨0, 0, .v 74, .v 70, .v 77, 0x1D000F⟩) := by rfl
theorem test_word_kstore : decode 0xE400782C280280CB04000000#96 =
    .ok (⟨false, 15⟩, .kstore ⟨0, 0, 0, 2, 3, .v 40, .v 10, .v 12, .ct 1, 0⟩) := by rfl
theorem test_word_penal : decode 0xE70078000802686FFFC00000#96 =
    .ok (⟨false, 15⟩, .penal ⟨0, 0, 0, 0, .v 8, .v 9, .s 6, .none, none⟩) := by rfl
theorem test_word_sysc : decode 0xF0007803FFFFFC0000000021#96 =
    .ok (⟨false, 15⟩, .sysc ⟨0, 0, 0, 0, .none, .none, none, 0x21⟩) := by rfl
/-- The slot of a line that the spec writes out byte by byte (R49, R72): BRA under P1, bits as the table numbers them. -/
theorem test_table_word : decodeTableWord 96 0x01000803FFFFC00004000001 = some (.bra ⟨false, .none, .none, 1, 1⟩) := by rfl

/-! ### Ill-formed instructions: one for each check (R61 to R66, R69) -/

/-- An F3 word for tests. -/
def f3 : F3 := ⟨0, 0, 0, 0, .v 4, .v 6, .v 8, .none, none⟩
/-- An FI word for tests. -/
def fi : FI := ⟨0, 0, 0, 0, .v 4, .v 6, none, 8⟩
/-- An FM word for tests. -/
def fm : FM := ⟨0, 2, 0, 0, 0, .v 4, .v 6, .v 8, .none, 0⟩
/-- An FB word for tests. -/
def fb : FB := ⟨false, .none, .none, 4, 1⟩
/-- An FK word for tests. -/
def fk : FK := ⟨3, 0, .none, .none, .none, 0⟩
/-- An FT word for tests. -/
def ft : FT := ⟨0, 4, 3, 3, .s 4, .none, 5, 7, .ct 2⟩

theorem test_wf_accepts : [Instr.iadd f3, .lea fi, .lds fm, .bra fb, .join fk, .tmma ft, .nop].all Instr.legal = true := by decide
theorem test_wf_f3 : [Instr.iadd { f3 with fn := 1 }, .iabs { f3 with ty := 1, b := .none }, .iadd { f3 with md := 2 },
    .iadd { f3 with rm := 1 }, .fadd { f3 with rm := 1, md := 8 }, .pmov { f3 with a := .none }, .pset f3, .mov f3,
    .iadd { f3 with c := .v 0 }, .iadd { f3 with pd := some 0 }, .iaddcAdd { f3 with ty := 1 }, .isetp { f3 with d := .none }].all
      (fun i => !i.legal) = true := by decide
theorem test_wf_fi : [Instr.movi fi, .lea { fi with fn := 2 }, .lea { fi with ty := 1 }, .lea { fi with rm := 1 },
    .lea { fi with md := 1 }, .lea { fi with pd := some 0 }, .nap fi, .board { fi with a := .none },
    .rdsr { fi with a := .none, imm := 20 }, .wrsr { fi with d := .none, imm := 17 }].all (fun i => !i.legal) = true := by decide
theorem test_wf_fm : [Instr.lds { fm with sz := 5 }, .lds { fm with rd := 1 }, .lds { fm with sem := 1 }, .lds { fm with scope := 1 },
    .lds { fm with c := .v 0 }, .lds { fm with fn := 1 }, .ldg { fm with scope := 1 }, .prefMem { fm with fn := 1 },
    .tlbinvVa { fm with sz := 0, d := .none }, .fenceSc ⟨0, 0, 0, 2, 0, .none, .none, .none, .none, 0⟩,
    .kstore { fm with sz := 0, sem := 2, ofs := 1 }, .atom { fm with sem := 1, sz := 4 }, .atoms { fm with fn := 13, sz := 3 }].all
      (fun i => !i.legal) = true := by decide
theorem test_wf_fb : [Instr.bra { fb with lnk := .v 0 }, .bra { fb with slot := 5 }, .bra { fb with tgtr := .v 0 },
    .bra { fb with kind := true }, .brx fb, .ret ⟨true, .none, .v 0, 1, 0⟩, .ret ⟨true, .none, .v 0, 0, 1⟩].all
      (fun i => !i.legal) = true := by decide
theorem test_wf_fk : [Instr.join { fk with mask2 := 1 }, .join { fk with d := .v 0 }, .join { fk with a := .v 0 }, .join { fk with b := .v 0 },
    .join { fk with imm := 1 }, .voteBallot { fk with a := .v 0 }, .msetMov { fk with a := .v 0, imm := 1 },
    .tbegin ⟨0, 0, .none, .none, .none, 5 <<< 26⟩, .xmcast ⟨0, 0, .none, .none, .none, 1 <<< 22⟩].all (fun i => !i.legal) = true := by decide
theorem test_wf_ft : [Instr.tmma { ft with fn := 1 }, .tmma { ft with shape := 5 }, .tmma { ft with fmta := 8 }, .adpt { ft with shape := 7 }].all
      (fun i => !i.legal) = true := by decide
theorem test_wf_immediates : [Instr.cbar ⟨0, 0, 0, 0, .none, .none, none, 0x001⟩, .cbar ⟨0, 0, 0, 0, .none, .none, none, 0x1900⟩,
    .cbar ⟨0, 0, 0, 0, .none, .none, none, 0x110⟩, .kbar ⟨0, 0, 0, 0, .none, .none, none, 1⟩,
    .kbar ⟨0, 0, 0, 0, .none, .none, none, 385 <<< 16⟩, .wgrow ⟨0, 0, 0, 0, .none, .none, none, 16⟩,
    .wgrow ⟨0, 0, 0, 0, .none, .none, none, 640⟩, .rdpr ⟨0, 0, 0, 0, .v 4, .none, none, 5⟩, .freezeRegion ⟨0, 0, 0, 0, .none, .none, none, 16⟩,
    .freezeSlot ⟨2, 0, 0, 0, .none, .none, none, 4⟩, .tabort ⟨0, 0, 0, 0, .none, .none, none, 256⟩].all (fun i => !i.legal) = true := by decide
theorem test_wf_codes : [Instr.cvt { f3 with fn := 0x11, b := .none }, .cvt { f3 with fn := 0x09, b := .none },
    .unpack { f3 with fn := 0, md := 2, b := .none }, .crstat { fi with fn := 0 }, .tkfwd { f3 with c := .v 0 },
    .cgath { fm with sz := 0, sem := 1, c := .v 10, ofs := 0 }, .cgath { fm with sz := 0, sem := 1, c := .v 10, ofs := 0x301000 }].all
      (fun i => !i.legal) = true := by decide

/-! ### Small states -/

/-- A state in which the 32 lanes of one group stand at an instruction in a mode: a word placed as log 3 says. -/
def st (m : Mode) : State :=
  (State.reset.withFetchWord 96 0x00007803FFFFFFFFFFC00000).onGroup 0 0 fun x => x.onLanes x.live fun _ k => { k with mode := m }
/-- The same with the group changed. -/
def stG (m : Mode) (f : Group → Group) : State := (st m).onGroup 0 0 f
/-- The issuing set of `st`, all of its lanes active. -/
def cx (m : Mode) : Ctx := ⟨0, 0, 0, List.range 32, List.range 32, m, BitVec.ofNat 53 (placedLine + 4)⟩
/-- `st` under a predicate that no lane passes. -/
def stI (m : Mode) : State := { st m with cur := (st m).cur.map fun i => { i with guard := ⟨true, 15⟩ } }
/-- The issuing set of `stI`: no lane is active. -/
def cxI (m : Mode) : Ctx := { cx m with act := [] }
/-- A state in which lane 31 alone stands at an instruction. -/
def st1 (m : Mode) : State :=
  let s := (st m).onGroup 0 0 fun x => { x with lanes := x.lanes.mapIdx fun l k => if l = 31 then k else Lane.empty }
  { s with cur := s.cur.map fun i => { i with lanes := 2 ^ 31 } }
/-- The issuing set of `st1`. -/
def cx1 (m : Mode) : Ctx := { cx m with set := [31], act := [31] }
/-- A group whose V registers hold a value in every lane (registers ascending, values not zero). -/
def vals (vs : List (Nat × Nat)) (x : Group) : Group :=
  { x with v := vs.flatMap fun e => (List.range 32).map fun l => (32 * e.1 + l, BitVec.ofNat 32 e.2) }

/-- The conditions of `CanIssue` as one Boolean. -/
def ready (s : State) (c : Ctx) (masks : List (Fin 16)) (uses : List Use) : Bool :=
  decide (s.ctx? = some c) && (s.group? c.core c.gid).isSome && c.set.all (fun l => ((s.grp c).lane l).live) && !uses.any Use.illegal &&
  masks.all (fun m => decide (m.val < 12)) && !uses.any (Use.outside (s.grp c).winsize) &&
  !(decide (c.mode = .u) && masks.any (fun m => decide (10 ≤ m.val))) && !uses.any (s.owes c) && !uses.any (s.streams c) &&
  ((s.grp c).tagsBusy uses).isNone && (c.act.filter ((s.grp c).parityFails uses)).isEmpty

theorem canIssue {s : State} {c : Ctx} {masks : List (Fin 16)} {uses : List Use} (h : ready s c masks uses = true) :
    CanIssue s c masks uses := by
  simp only [ready, Bool.and_eq_true, Bool.not_eq_true', decide_eq_true_eq, Option.isNone_iff_eq_none, List.isEmpty_iff] at h
  obtain ⟨⟨⟨⟨⟨⟨⟨⟨⟨⟨a, b⟩, c⟩, d⟩, e⟩, f⟩, g⟩, i⟩, j⟩, k⟩, l⟩ := h
  exact ⟨a, b, c, d, e, f, g, i, j, k, l⟩

/-- An instruction can issue with the fields of each of some lists, with all lanes active and with none. -/
def Issues (m : Mode) (us : List (List (Fin 16) × List Use)) : Prop :=
  ∀ e ∈ us, CanIssue (st m) (cx m) e.1 e.2 ∧ CanIssue (stI m) (cxI m) e.1 e.2

theorem issues {m : Mode} {us : List (List (Fin 16) × List Use)}
    (h : (us.all fun e => ready (st m) (cx m) e.1 e.2 && ready (stI m) (cxI m) e.1 e.2) = true) : Issues m us := by
  intro e he
  have := List.all_eq_true.mp h e he
  rw [Bool.and_eq_true] at this
  exact ⟨canIssue this.1, canIssue this.2⟩

/-! ### Hypotheses that are met: registers, flags and masks -/

theorem test_hyp_MoveAndBitResults : Issues .u [([], [dst32 (.v 639), src32 (.s 63)]), ([], [dst64 (.v 638), src64 (.const 254)]),
    ([], [dst32 (.s 0)]), ([], [dst64 .none]), ([], [dst32 (.v 0), src32 (.v 0), src32 (.const 0), src32 .none]),
    ([], [dst64 (.v 0), src64 (.v 0), src64 (.s 1), src32 (.v 1)]), ([], [dst32 (.v 1), src64 (.v 638)])] :=
  issues (by decide +kernel)
theorem test_hyp_IntegerPredicateAndVoteResults : Issues .u [([], [dst32 (.v 639), src32 (.v 639), src32 (.v 639)]),
    ([], [dst64 (.v 638), src64 (.v 638), src64 (.v 0), src64 (.const 127)]), ([], [src32 (.v 0), src32 .none]), ([], [src32 (.v 1)]),
    ([9], [dst32 (.v 3)]), ([0], [dst32 .none]), ([], [dst32 (.s 1), src32 (.v 0)])] := issues (by decide +kernel)
theorem test_hyp_CarryResults : Issues .u [([], [dst32 (.v 639), src32 (.s 0), src32 (.const 3)]), ([], [dst64 (.s 2), src64 (.v 0), src64 .none])] :=
  issues (by decide +kernel)
theorem test_hyp_CrossLaneResults : Issues .u [([], [dst32 (.v 639), src32 (.v 0), src32 (.const 254)]),
    ([], [dst64 (.v 638), src64 (.v 0), src32 (.v 639)]), ([], [dst64 .none, src64 (.s 0)])] := issues (by decide +kernel)
theorem test_hyp_FloatArithmeticResults : Issues .u [([], [dst32 (.v 639), src32 (.const 0)]), ([], [dst32 (.s 63), src32 (.v 1), src32 (.s 2)]),
    ([], [dst32 (.v 1), src32 (.v 1), src32 (.v 1), src32 .none])] := issues (by decide +kernel)
theorem test_hyp_FloatConversionAndFunctionResults : Issues .u [([], [src32 (.v 639), src32 (.const 127)]), ([], [dst64 (.v 638), src32 (.v 1)]),
    ([], [dst32 (.v 1), src64 (.v 638)]), ([], [{ dstRun (.v 632) 8 false with noneOk := false }, { srcRun (.v 608) 32 false with noneOk := false }, dst32 (.v 0)]),
    ([], [{ dstRun (.v 608) 32 false with noneOk := false }, { srcRun (.v 636) 4 false with noneOk := false }, src32 (.v 0)])] :=
  issues (by decide +kernel)

/-! ### Turns, transfers, masks and barriers -/

/-- A group whose odd lanes stand elsewhere: two PC sets. -/
def twoSets (x : Group) : Group := x.onLanes (x.live.filter fun l => l % 2 = 1) fun _ k => { k with pc := 4 }

theorem test_hyp_PausesAndEnds : Issues .u [([], []), ([], [src32 (.v 639)])] ∧
    (let x := (stG .u twoSets).grp (cx .u)
     x.nextSet x.current = some ((List.range 16).map fun i => 2 * i + 1) ∧ x.current ∉ (List.range 16).map fun i => 2 * i + 1) ∧
    (let b := (st1 .u).begun (cx1 .u) []
     CanIssue (st1 .u) (cx1 .u) [] [] ∧ (cx1 .u).act.all (fun l => !b.hasUnfinished 0 0 l) = true ∧
       (((b.advance (cx1 .u)).endLanes 0 0 (cx1 .u).act).submitAll 0 0).isSome = true) :=
  ⟨issues (by decide +kernel), by decide +kernel, canIssue (by decide +kernel), by decide +kernel, by decide +kernel⟩

/-- Every lane holds the address of the instruction itself, which is a target. -/
def stHere (m : Mode) : State := stG m (vals [(0, placedLine + 4)])

theorem test_hyp_TransfersReachTheirTargets :
    (CanIssue (st .u) (cx .u) [] (transferUses ⟨false, .none, .none, 0, 0⟩) ∧
      ∀ l ∈ (cx .u).act, (st .u).target (cx .u) (transferTarget ⟨false, .none, .none, 0, 0⟩ (st .u) (cx .u) l) = .ok) ∧
    (CanIssue (stHere .u) (cx .u) [] ({ dst64 (.s 63) with noneOk := false } :: transferUses ⟨true, .s 63, .v 0, 0, 0⟩) ∧
      ∀ l ∈ (cx .u).act, (stHere .u).target (cx .u) (transferTarget ⟨true, .s 63, .v 0, 0, 0⟩ (stHere .u) (cx .u) l) = .ok) ∧
    CanIssue (stI .u) (cxI .u) [] (transferUses ⟨false, .none, .none, 4, 0⟩) :=
  ⟨⟨canIssue (by decide +kernel), by decide +kernel⟩, ⟨canIssue (by decide +kernel), by decide +kernel⟩, canIssue (by decide +kernel)⟩

theorem test_hyp_MaskInstructions : Issues .u [([0], []), ([9], []), ([3], [src32 (.v 639)]), ([3, 9], [src32 (.s 0)])] ∧ Issues .s [([11], [])] ∧
    (let b := (st .u).begun (cx .u) []
     (((b.advance (cx .u)).onGrp (cx .u) fun x => (cx .u).act.foldl (fun x l => x.leaveMask 3 l) x).submitAll 0 0).isSome = true ∧
      (((((st .u).begun (cx .u) [src32 (.v 639)]).advance (cx .u)).onGrp (cx .u) fun x => x.mset 3 0xFFFFFFFF).submitAll 0 0).isSome = true ∧
      (b.mayRelease 0 0 0 ((cx .u).act.filter fun l => ((b.grp (cx .u)).mask 3).enrol.testBit l)) = true) :=
  ⟨issues (by decide +kernel), issues (by decide +kernel), by decide +kernel⟩

/-- `st` on a core whose slot 0 may hold no group more. -/
def stFull (m : Mode) : State := (st m).onCore 0 fun k => { k with slotcfg := List.replicate 4 0 }

theorem test_hyp_SpawnCreatesAGroup :
    (let f : FB := ⟨false, .v 639, .none, 0, 0⟩
     let uses := dst32 f.lnk :: transferUses f
     let b := (st .u).begun (cx .u) uses
     (CanIssue (stI .u) (cxI .u) [] uses ∧ (cxI .u).act = []) ∧
     (CanIssue (st .u) (cx .u) [] uses ∧ (cx .u).act ≠ [] ∧ b.mayRelease 0 0 0 (cx .u).act = true ∧
       (b.core 0).admits 0 (b.grp (cx .u)).window.length = true) ∧
     (let b := (stFull .u).begun (cx .u) uses
      CanIssue (stFull .u) (cx .u) [] uses ∧ b.mayRelease 0 0 0 (cx .u).act = true ∧
        (b.core 0).admits 0 (b.grp (cx .u)).window.length = false)) :=
  ⟨⟨canIssue (by decide +kernel), rfl⟩, ⟨canIssue (by decide +kernel), by decide +kernel⟩, canIssue (by decide +kernel), by decide +kernel⟩

/-- A scratchpad word of an arrival barrier: EXPECT 3, PEND 2, PHASE 7. -/
def arrBytes : Map Byte := putBytes [] 8 8 (3 * 2 ^ 32 + 2 * 2 ^ 16 + 7)
/-- `st` with that word at scratchpad address 8 of its slot. -/
def stBar (m : Mode) : State := (st m).onCore 0 fun k => { k with spad := arrBytes }

theorem test_hyp_BarrierInstructions : Issues .u [([], [src32 (.v 639)]), ([], [dst32 (.v 0), src32 .none]), ([], [])] ∧
    ([[src32 (.v 639)], [dst32 (.v 0), src32 .none]].all fun us =>
      let b := (st .u).begun (cx .u) us
      decide ((b.core 0).spadFail 0 0 8 = none) && decide ((b.core 0).spadFail 0 8 8 = none) && b.mayRelease 0 0 0 [0] &&
      b.mayRelease 0 0 0 (cx .u).act && b.mayRelease 0 0 0 []) = true ∧
    (let b := (st .u).begun (cx .u) []
     b.mayRelease 0 0 0 (cx .u).act = true ∧ b.kbarn 0 (b.grp (cx .u)) ≤ 0) := 
  ⟨issues (by decide +kernel), by decide +kernel, by decide +kernel⟩

theorem test_hyp_BarrierCompletion :
    (let x : Group := ({ Group.empty with lanes := (List.range 32).map fun l => { Lane.empty with live := decide (l < 2), wait := if l = 0 then .waitm 3 else .none } } : Group).setMask 3
        { MaskReg.empty with enrol := 1, arr := 1 }
     (x.mask 3).enrol ≠ 0 ∧ (x.mask 3).arr = (x.mask 3).enrol ∧ 3 < x.masks.length ∧ 0 ∈ x.live ∧ (x.lane 0).wait = .waitm 3 ∧
       (x.lane 1).wait ≠ .waitm 3) ∧
    (let k : Core := { Core.reset with spad := arrBytes }
     let w := k.arrWord 8
     w.expect ≠ 0 ∧ w.pend < 3 ∧ 0 < min 2 w.pend ∧ min 2 w.pend = w.pend ∧ min 0 w.pend = 0 ∧ min 1 w.pend < w.pend ∧ (k.arrWord 16).expect = 0) ∧
    (let b : Barrier := ⟨[5], 2, 0, 0, 0⟩
     b.arrived.length + 1 = (if b.arrived = [] then 9 else b.expected) ∧ Barrier.reset.arrived.length + 1 ≠ (if Barrier.reset.arrived = [] then 2 else 0)) := by
  decide +kernel

theorem test_hyp_SpecialRegistersAndWindow : Issues .u [([], [dst64 (.v 638)]), ([], [dst32 (.s 63)]), ([], [src32 (.v 639)]), ([], [])] ∧
    (let b := (st .u).begun (cx .u) [src32 (.v 639)]
     let x := ((st .u).begun (cx .u) []).advance (cx .u)
     b.flagsOwed (cx .u) = false ∧ (x.grp (cx .u)).winsize < 640 + 32 ∧ 608 + 32 ≤ (x.grp (cx .u)).winsize ∧
       x.busyAbove (cx .u) ((x.grp (cx .u)).winsize - 608) = false) := ⟨issues (by decide +kernel), by decide +kernel⟩

/-- An operator that binds every role to core 0 and has 4 cluster barriers. -/
def op0 : OpSlot :=
  { bind := 0, st := 1, entry := 0, window := 1, groups := 1, ctxslot := 0, stage := 0, home := 0, kbarn := 4, fpctl := 0, idem := false, clone := true,
    cloneMax := 1, region := 0, thresholds := (8, 16, 32), timeout := 10, balMark := 1, balInt := 0, portal := 0, roles := List.replicate 16 (some 0),
    chains := [], sched := [], ptroot := 0, vmroot := 0, cloneOf := none, ready := [], lastRole := 0, hotSince := none, coldSince := none,
    firedAt := none, pinned := [], leaves := [] }
/-- A state whose die 0 binds that operator as operator 0. -/
def bound (s : State) : State := s.onDie 0 fun d => { d with ops := [(0, op0)] }

theorem test_hyp_BarrierInstructions_kbar : CanIssue (bound (st .u)) (cx .u) [] [] ∧
    (let b := (bound (st .u)).begun (cx .u) []
     3 < b.kbarn 0 (b.grp (cx .u)) ∧ b.mayRelease 0 0 1 (cx .u).act = true) := ⟨canIssue (by decide +kernel), by decide +kernel⟩

/-! ### Scratchpad, accumulators and the array -/

/-- A load or store of 16 bytes at an address of each lane. -/
def fm16 (a : Operand) : FM := ⟨0, 4, 0, 0, 0, .v 8, a, .none, .v 16, 0⟩
/-- `st` with a number in V0 of every lane and a scratchpad descriptor in S0: base 0x100, rows of 512 bytes. -/
def stDesc (m : Mode) (v : Nat) : State := stG m fun x => { vals [(0, v)] x with s := [(0, BitVec.ofNat 64 (0x100 + 512 * 2 ^ 32))] }

theorem test_hyp_ScratchpadAccesses :
    (let f := fm16 (.v 0)
     let uses := [dstData f.d 16, src64 f.a, src32 f.b]
     CanIssue (stDesc .u 0x5FFF0) (cx .u) [] uses ∧ CanIssue (stDesc .u 0x5FFF0) (cx .u) [] [srcData f.d 16, src64 f.a, src32 f.b] ∧
       ∀ l ∈ (cx .u).act, ((stDesc .u 0x5FFF0).begun (cx .u) uses).ldsFail f (cx .u) l = none) ∧
    (let f := { fm16 (.s 0) with sz := 2, b := .v 0 }
     let uses := [dstData f.d 4, descUse f.a, src32 f.b]
     let b := (stDesc .u 0x3).begun (cx .u) uses
     CanIssue (stDesc .u 0x3) (cx .u) [] uses ∧ CanIssue (stDesc .u 0x3) (cx .u) [] [srcData f.d 4, descUse f.a, src32 f.b] ∧
       (∀ l ∈ (cx .u).act, b.ldsrFail f (cx .u) l = none) ∧
       (descOf ((b.advance (cx .u)).grp (cx .u) |>.descWords f.a).1 ((b.advance (cx .u)).grp (cx .u) |>.descWords f.a).2).isSome = true) ∧
    (let f := { fm16 (.v 0) with sz := 3, fn := 10 }
     let uses := [dstData f.d 8, src64 f.a, src32 f.b] ++ [srcData f.c 8]
     CanIssue (stDesc .u 0x5FFF8) (cx .u) [] uses ∧ ∀ l ∈ (cx .u).act, ((stDesc .u 0x5FFF8).begun (cx .u) uses).atomsFail f (cx .u) l = none) :=
  ⟨⟨canIssue (by decide +kernel), canIssue (by decide +kernel), by decide +kernel⟩,
    ⟨canIssue (by decide +kernel), canIssue (by decide +kernel), by decide +kernel, by decide +kernel⟩, canIssue (by decide +kernel), by decide +kernel⟩

theorem test_hyp_StoreToScratchpadFrame :
    (let f := fm16 (.v 0)
     let uses := [srcData f.d 16, src64 f.a, src32 f.b]
     CanIssue (stDesc .u 0) (cx .u) [] uses ∧ ∀ l ∈ (cx .u).act, ((stDesc .u 0).begun (cx .u) uses).ldsFail f (cx .u) l = none) :=
  ⟨canIssue (by decide +kernel), by decide +kernel⟩

theorem test_hyp_AccumulatorsAndFills :
    (let f : F3 := ⟨3, 0, 0, 3, .v 8, .const 190, .const 247, .v 8, none⟩
     let uses := [dstRun f.d 8 false, src32 f.a, src32 f.b]
     let b := (st .u).begun (cx .u) uses
     Issues .u [([], uses), ([], [src32 f.a, src32 f.b, srcRun f.c 8 false]), ([], []), ([], [src32 f.a, src32 f.b])] ∧
       (∀ l ∈ (cx .u).act, b.accFail f (cx .u) l = none) ∧ (b.core 0).accBusy 3 = false ∧ (b.core 0).ownsAcc 0 3 = true) ∧
    (let f : F3 := ⟨3, 0, 0, 1, .none, .const 127, .const 191, .none, none⟩
     let b := (st .u).begun (cx .u) [src32 f.a, src32 f.b]
     (b.grp (cx .u)).rd32 f.a 0 + (b.grp (cx .u)).rd32 f.b 0 ≤ 64) ∧
    (let f : FM := ⟨0, 3, 0, 0, 0, .v 8, .none, .v 0, .ct 7, 0⟩
     let uses := [srcData f.d 8, src64 f.a, src32 f.b, tagUse f.c]
     let b := (stDesc .u 0x60000).begun (cx .u) uses
     CanIssue (stDesc .u 0x60000) (cx .u) [] uses ∧ CanIssue (stDesc .u 0x60000) (cx .u) [] [srcData f.d 8, src64 f.a, src32 f.b, tagUse .none] ∧
       (b.grp (cx .u)).rd32 f.b 0 ≠ 0 ∧ wrap 53 (((b.grp (cx .u)).rd64 f.a 0 : Int) + f.ofs.toInt) % 8 = 0 ∧ (b.grp (cx .u)).rd32 f.b 0 % 8 = 0 ∧
       wrap 53 (((b.grp (cx .u)).rd64 f.a 0 : Int) + f.ofs.toInt) + (b.grp (cx .u)).rd32 f.b 0 ≤ (b.core 0).partSize 0 ∧
       ((b.core 0).fills.filter fun q => q.slot == 0).length < 16 ∧ CanIssue (stI .u) (cxI .u) [] uses) :=
  ⟨⟨issues (by decide +kernel), by decide +kernel⟩, by decide +kernel, canIssue (by decide +kernel), canIssue (by decide +kernel), by decide +kernel,
    by decide +kernel, by decide +kernel, by decide +kernel, by decide +kernel, canIssue (by decide +kernel)⟩

theorem test_hyp_FailingLanesTrap :
    (let f : FB := ⟨false, .none, .none, 3, 1⟩
     let b := (st .u).begun (cx .u) (transferUses f)
     CanIssue (st .u) (cx .u) [] (transferUses f) ∧ CanIssue (st .u) (cx .u) [] ({ dst64 (.v 638) with noneOk := false } :: transferUses f) ∧
       (cx .u).act.all (fun l => (st .u).target (cx .u) (transferTarget f (st .u) (cx .u) l) == .trap 3) = true) ∧
    (let f : FB := ⟨true, .none, .v 0, 0, 0⟩
     let s := stDesc .u (placedLine + 5)
     CanIssue s (cx .u) [] (transferUses f) ∧ (cx .u).act.all (fun l => s.target (cx .u) (transferTarget f s (cx .u) l) == .trap 1) = true) ∧
    (let s := (stDesc .u 0x40004).onCore 0 fun k => { k with tlb := k.tlb.map fun e => { e with size := 16, va := 0x10000, pa := e.pa + 0x10000 } }
     let f : FB := ⟨true, .none, .v 0, 0, 0⟩
     ((cx .u).act.find? fun l => match s.target (cx .u) (transferTarget f s (cx .u) l) with | .fault _ => true | _ => false) = some 0) ∧
    (let f := fm16 (.v 0)
     let b := (stDesc .u 0x5FFF8).begun (cx .u) [dstData f.d 16, src64 f.a, src32 f.b]
     CanIssue (stDesc .u 0x5FFF8) (cx .u) [] [dstData f.d 16, src64 f.a, src32 f.b] ∧
       CanIssue (stDesc .u 0x5FFF8) (cx .u) [] [srcData f.d 16, src64 f.a, src32 f.b] ∧ (b.ldsFail f (cx .u) 0).isSome = true) ∧
    (let f := { fm16 (.s 0) with sz := 2, b := .v 0 }
     let b := (stDesc .u 0xFFFF).begun (cx .u) [dstData f.d 4, descUse f.a, src32 f.b]
     CanIssue (stDesc .u 0xFFFF) (cx .u) [] [dstData f.d 4, descUse f.a, src32 f.b] ∧
       CanIssue (stDesc .u 0xFFFF) (cx .u) [] [srcData f.d 4, descUse f.a, src32 f.b] ∧ (b.ldsrFail f (cx .u) 0).isSome = true) ∧
    (let f := { fm16 (.v 0) with sz := 3 }
     let b := (stDesc .u 0x5FFFC).begun (cx .u) [dstData f.d 8, src64 f.a, src32 f.b, srcData f.c 8]
     CanIssue (stDesc .u 0x5FFFC) (cx .u) [] [dstData f.d 8, src64 f.a, src32 f.b, srcData f.c 8] ∧ (b.atomsFail f (cx .u) 31).isSome = true) ∧
    (let f := { ft with c := .ct 2, da := .s 0, shape := 4, fmta := 0 }
     let s := stDesc .u 1
     let uses := daUse f (s.grp (cx .u)) :: (if f.db = .none then [] else [descUse f.db]) ++ [tagUse f.c]
     let b := s.begun (cx .u) uses
     CanIssue s (cx .u) [f.cv] uses ∧ (b.opFail f (cx .u) none (b.chainOf (cx .u) f.epi.toNat)).isSome = true ∧
       (b.opFail f (cx .u) (some (8, 8)) (b.chainOf (cx .u) f.epi.toNat)).isSome = true) ∧
    (let f := { fm16 (.v 0) with sz := 3 }
     let s := stDesc .u 0x1001
     CanIssue s (cx .u) [] [dstData f.d 8, src64 f.a, src32 f.b] ∧ CanIssue s (cx .u) [] [srcData f.d 8, src64 f.a, src32 f.b] ∧
       CanIssue s (cx .u) [] [srcData f.d 8, src64 f.a, src32 f.b, src32 f.c] ∧ CanIssue s (cx .u) [] [src64 f.a, src32 f.b] ∧
       CanIssue s (cx .u) [] [dstData f.d 8, srcData f.d 8, src64 f.a, src32 f.b, src32 f.c] ∧
       (cx .u).act.find? (fun l => fmAddr f ((s.begun (cx .u) []).grp (cx .u)) l % 8 != 0) = some 0) :=
  ⟨⟨canIssue (by decide +kernel), canIssue (by decide +kernel), by decide +kernel⟩, ⟨canIssue (by decide +kernel), by decide +kernel⟩, by decide +kernel,
    ⟨canIssue (by decide +kernel), canIssue (by decide +kernel), by decide +kernel⟩,
    ⟨canIssue (by decide +kernel), canIssue (by decide +kernel), by decide +kernel⟩,
    ⟨canIssue (by decide +kernel), by decide +kernel⟩,
    ⟨canIssue (by decide +kernel), by decide +kernel, by decide +kernel⟩,
    canIssue (by decide +kernel), canIssue (by decide +kernel), canIssue (by decide +kernel), canIssue (by decide +kernel),
    canIssue (by decide +kernel), by decide +kernel⟩

/-- A state whose group holds a READY private weight block in bank 0 and may multiply. -/
def stArray (m : Mode) : State := (stDesc m 0).onCore 0 fun k =>
  { k with banks := [{ Bank.empty with st := 2, owner := some (placedGroup.uid) }, Bank.empty] }

theorem test_hyp_MatrixOperations :
    (let f : F3 := ⟨0, 0, 0, 0, .none, .s 0, .const 127, .ct 3, none⟩
     let uses := [descUse f.a, src32 f.b, tagUse f.c]
     let s := stDesc .u 0
     let b := s.begun (cx .u) uses
     let x := b.grp (cx .u)
     let k := (b.core 0).giveUpBank x.uid
     (CanIssue (stI .u) (cxI .u) [] uses) ∧ CanIssue s (cx .u) [] uses ∧ x.boarded = false ∧
       ((descOf (x.descWords f.a).1 (x.descWords f.a).2).any fun d => decide ((b.core 0).rowsFail 0 d 0 128 (rowBytes 0) = none)) = true ∧
       k.banks.length = 2 ∧ ([0, 1].any fun i => (k.bank i).owner == some x.uid) = false ∧ k.bankToTake.isSome = true) ∧
    Issues .u [([], []), ([3], []), ([0], [descUse (.s 0), tagUse .none]), ([0], [descUse (.s 0), descUse (.s 2), tagUse (.ct 0)])] ∧
    (let f := { ft with c := .ct 2, da := .s 0, shape := 1, fmta := 0, epi := 0 }
     let s := stArray .u
     let uses := daUse f (s.grp (cx .u)) :: (if f.db = .none then [] else [descUse f.db]) ++ [tagUse f.c]
     let b := s.begun (cx .u) uses
     let chain := b.chainOf (cx .u) 0
     let ls := (cx .u).act.filter fun l => ((b.grp (cx .u)).mask f.cv.val).enrol.testBit l
     CanIssue s (cx .u) [f.cv] uses ∧ b.opFail f (cx .u) none chain = none ∧ b.mayRelease 0 0 0 ls = true ∧
       (({ (b.advance (cx .u)).onGrp (cx .u) (fun x => x.issueOp (b.matOp f (cx .u) none chain) ls) with nextId := b.nextId + 1 } : State).submitAll 0 0).isSome = true) ∧
    (let s := stG .u fun x => x.setMask 3 { x.mask 3 with enrol := 2 ^ 31 }
     let b := s.begun (cx .u) []
     CanIssue s (cx .u) [3] [] ∧ b.mayRelease 0 0 0 [31] = true ∧ (((b.advance (cx .u)).onGrp (cx .u) fun x => x.sign 3 [31]).submitAll 0 0).isSome = true) :=
  ⟨⟨canIssue (by decide +kernel), canIssue (by decide +kernel), by decide +kernel, by decide +kernel, by decide +kernel, by decide +kernel, by decide +kernel⟩,
    issues (by decide +kernel), ⟨canIssue (by decide +kernel), by decide +kernel, by decide +kernel, by decide +kernel⟩,
    canIssue (by decide +kernel), by decide +kernel, by decide +kernel⟩

/-! ### Memory -/

theorem test_hyp_GlobalAccesses :
    (let f := { fm16 (.v 0) with sz := 5 }
     let s := stDesc .u 0x20000
     Issues .s [([], [dstData f.d 32, src64 f.a, src32 f.b]), ([], [srcData f.d 32, src64 f.a, src32 f.b]), ([], [srcData f.d 32, src64 f.a, src32 f.b, src32 f.c]),
       ([], [src64 f.a, src32 f.b]), ([], [dst64 f.d, src64 f.a, src32 f.b]), ([], [dst32 f.d, src64 f.a, src32 f.b, src32 f.c])] ∧
     (cx .s).mode ≠ .u ∧
     ∀ n ∈ [32, 128], ∀ w ∈ [false, true], ∀ l ∈ (cx .u).act, ((s.grp (cx .u)).lane l).tx.active = false ∧ fmAddr f (s.grp (cx .u)) l % n = 0 ∧
       s.laneMayIssue (cx .u) (releases f.sem w && !s.toHost (cx .u) (if w then .store else .load) (fmAddr f (s.grp (cx .u)) l)) f.scope.toNat l = true ∧
       s.logBlocks (s.newAccess (cx .u) l f (if w then .store else .load false) (fmAddr f (s.grp (cx .u)) l) n .none 0) = false) :=
  ⟨issues (by decide +kernel), by decide, by decide +kernel⟩

theorem test_hyp_WaitvAndFences :
    (let f := { fm16 (.v 0) with sz := 3, sem := 3, scope := 3 }
     let s := stDesc .u 0x20000
     CanIssue s (cx .u) [] [dstData f.d 8, srcData f.d 8, src64 f.a, src32 f.b, src32 f.c] ∧ CanIssue s (cx .u) [] [] ∧
     (∀ l ∈ (cx .u).act, (s.grp (cx .u)).inTx l = false ∧ fmAddr f (s.grp (cx .u)) l % 8 = 0 ∧
       s.laneMayIssue (cx .u) true 3 l = true ∧ s.toHost (cx .u) .load (fmAddr f (s.grp (cx .u)) l) = false ∧
       s.logBlocks (s.newAccess (cx .u) l f (.waitv 0) (fmAddr f (s.grp (cx .u)) l) 8 f.d 2) = false) ∧
     s.mayRelease 0 0 3 (cx .u).act = true ∧ ∀ l ∈ (cx .u).act, s.ofLane (cx .u) l = []) :=
  ⟨canIssue (by decide +kernel), canIssue (by decide +kernel), by decide +kernel, by decide +kernel, by decide +kernel⟩

/-- A store of 8 bytes that holds its memory request slot. -/
def acc0 : Access :=
  { id := 5, core := 0, gid := 0, lane := 31, seqno := 0, pc := 4, mode := .u, slot := 0, kind := .store, sem := 0, scope := 0, rd := 0,
    va := 0x20000, size := 8, data := 0x1122334455667788, data2 := 0, mask := 0x7F, dest := .none, regs := 1, tag := none, c := 1, h := 0, tx := false,
    irrev := false, stage := .granted, pa := 0x20000, repl := false, log := none, passed := false, race := none, value := 9, stamp := 0,
    readOf := none, horizon := none, since := 0, timeout := none, late := false, held := false, logWait := false, queued := false,
    away := false, order := 1, floor := none, orphan := false, set := 0, peers := [] }
/-- `st` with an access and the operands of an event. -/
def stAcc (a : Access) (t : EventArgs := { EventArgs.zero with unit := 5 }) : State := { st .u with accesses := [a], turn := t }
/-- `stAcc` whose sector was last written by another fibre at a stamp that no lane has acquired. -/
def stRace (a : Access) : State := { stAcc a with rmeta := [(0x1000, ⟨7, 1234, 0xFF, 0, 0, 0⟩)] }

theorem plainly {s : State} {a : Access} (h : (decide (s.access? s.turn.unit = some a) && !isHost a.pa && !s.isOnChip a.pa && !s.isMgmt a.pa &&
    s.mayPerform a && !a.late && !a.repl && (s.raceOf a).isNone && decide ((s.core a.core).ckptMode ≠ 1)) = true) : PerformsPlainly s a := by
  simp only [Bool.and_eq_true, Bool.not_eq_true', decide_eq_true_eq, Option.isNone_iff_eq_none] at h
  obtain ⟨⟨⟨⟨⟨⟨⟨⟨a, b⟩, c⟩, d⟩, e⟩, f⟩, g⟩, i⟩, j⟩ := h
  exact ⟨a, ⟨b, c, d⟩, e, f, g, i, .inl j⟩

theorem test_hyp_PerformedStoreWritesItsBytes : PerformsPlainly (stAcc acc0) acc0 ∧ acc0.kind = .store := ⟨plainly (by decide +kernel), rfl⟩

/-- A load that holds its slot, and one whose reply is on its way. -/
def load0 : Access := { acc0 with kind := .load true, size := 1, mask := 1, dest := .v 639 }

theorem test_hyp_LoadsDeliverMemory : PerformsPlainly (stAcc load0) load0 ∧
    (let a := { load0 with stage := .replying, value := 0x80 }
     let s := stAcc a
     s.access? s.turn.unit = some a ∧ a.plainLane = true ∧ a.gid < 32 ∧ s.poisoned a.pa a.size = false ∧ (s.group? 0 0).isSome = true ∧ 639 < (s.group 0 0).winsize) :=
  ⟨plainly (by decide +kernel), by decide +kernel⟩

theorem test_hyp_RacingAccessIsParked : ∀ a ∈ [acc0, load0],
    (stRace a).access? 5 = some a ∧ a.repl = false ∧ a.late = false ∧ (stRace a).mayPerform a = true ∧ ((stRace a).raceOf a).isSome = true ∧
      ((stRace a).core 0).raceMode 0 = 0 ∧ a.orphan = false ∧ a.lane < ((stRace a).group 0 0).lanes.length := by decide +kernel

/-- Operands of an event. -/
def ev (unit item sub : Nat) : EventArgs := { EventArgs.zero with unit := unit, item := item, sub := sub }
/-- `st` with the operands of an event. -/
def stEv (t : EventArgs) : State := { st .u with turn := t }

theorem test_hyp_MemoryAndCoreEvents :
    (let a := { acc0 with stage := .ready, pa := 2 ^ 45 }
     (stAcc a).access? 5 = some a ∧ a.queued = false ∧ (stAcc a).isHbm a.pa = false) ∧
    (let a := { acc0 with stage := .replying }
     (stAcc a).access? 5 = some a ∧ a.plainLane = true ∧ a.gid < 32) ∧
    (let a := { acc0 with repl := true }
     (stAcc a).access? 5 = some a ∧ (stAcc a).mayPerform a = true) ∧
    (let a := { acc0 with kind := .waitv 0, id := 6 }
     let s := { stAcc a (ev 0 0 31) with cores := (stG .u fun x => x.onLane 31 fun k => { k with wait := .waitv 6 }).cores }
     s.waitvOf 0 0 31 = some a ∧ s.mayPerform a = true) ∧
    (stEv (ev 5 0 0)).access? 5 = none ∧
    (let s := { stG .u fun x => x.onLane 31 fun k => { k with wait := .nap 0 } with turn := ev 0 0 31 }
     (s.group? 0 0).isSome = true ∧ ((s.group 0 0).lane 31).wait = .nap 0 ∧ 0 ≤ s.clk) ∧
    (let s := { (st .u).onCore 0 fun k => { k with cbar := [(63, Barrier.reset)] } with turn := ev 0 3 15 }
     s.turn.flag = false ∧ (s.core 0).cbar.find? (16 * 3 + 15) = some Barrier.reset) ∧
    (let s := { (st .u).onCore 0 fun k => { k with fills := [⟨7, 0, 0, 0, 8, 1, 4, none⟩] } with turn := ev 0 7 0 }
     ((s.core 0).fills.find? fun q => q.id == s.turn.item).isSome = true) ∧
    (let s := { (st .u).onCore 0 fun k => { k with spmapNew := some (0x4001, 0, 1), accownNew := some (0x0FFF, 0, 1) } with turn := ev 0 0 0 }
     (s.core 0).spmapNew = some (0x4001, 0, 1) ∧ (s.core 0).accownNew = some (0x0FFF, 0, 1) ∧
       ∀ t ∈ [0, 1, 2, 3], ownOf 0x0FFF t ≠ ownOf (s.core 0).accown.toNat t → (s.core 0).accBusy t = false) := by decide +kernel

/-! ### Service units and transactions -/

theorem test_hyp_ServiceRequestsIssue :
    (let f := { fm16 (.v 0) with sz := 3, fn := 8, sem := 2 }
     let s := stDesc .u 0x20000
     CanIssue s (cx .u) [] [dstData f.d 8, src64 f.a, src32 f.b, srcData f.c 8] ∧ CanIssue s (cx .u) [] [src64 f.a, src32 f.b, srcData f.c 8] ∧
     CanIssue s (cx .u) [] [dst32 f.d, src64 f.a, src32 f.b] ∧ CanIssue s (cx .u) [] [src64 f.a, src32 f.b] ∧
     ∀ l ∈ (cx .u).act, (s.grp (cx .u)).inTx l = false ∧ fmAddr f (s.grp (cx .u)) l % 8 = 0 ∧
       (∀ k ∈ [.atomic 8, .atomicR 0, .ptry, .prel, .pacq], s.portalFails (cx .u) k (fmAddr f (s.grp (cx .u)) l) 8 = false) ∧
       s.laneMayIssue (cx .u) true 0 l = true ∧ s.toHost (cx .u) .atomic (fmAddr f (s.grp (cx .u)) l) = false ∧
       (∀ k ∈ [.atomic 8, .atomicR 0, .ptry, .prel, .pacq], s.logBlocks (s.newAccess (cx .u) l f k (fmAddr f (s.grp (cx .u)) l) 8 f.d 2) = false) ∧
       s.unitsFull ((cx .u).act.filterMap fun l => s.requestAt (cx .u) (fmAddr f (s.grp (cx .u)) l)) = false ∧ ((s.ofLane (cx .u) l).filter fun a =>
         match a.kind with | .atomic _ => true | .pacq => true | .ptry => true | _ => false).length < 4) :=
  ⟨canIssue (by decide +kernel), canIssue (by decide +kernel), canIssue (by decide +kernel), canIssue (by decide +kernel), by decide +kernel⟩

/-- A lane in a transaction. -/
def inTx (t : Tx) (x : Group) : Group := x.onLane 31 fun k => { k with tx := { t with active := true, depth := 1 } }

theorem test_hyp_ServiceRequestsPerform :
    (∀ k ∈ [AccKind.atomic 8, .atomicR 0, .ptry], let a := { acc0 with kind := k, mask := 0xFF }
     (stAcc a).access? 5 = some a ∧ a.queued = false ∧ a.away = false ∧ a.late = false ∧ a.irrev = false ∧ isHost a.pa = false ∧ (stAcc a).isOnChip a.pa = false ∧
       (stAcc a).isMgmt a.pa = false ∧ (stAcc a).mayPerform a = true ∧ ((stAcc a).core 0).ckptMode ≠ 1 ∧ a.mask = 2 ^ a.size - 1 ∧ (stAcc a).failing a = false) ∧
    (let a := { acc0 with kind := .atomic 8, mask := 0xFF }
     let s := { stAcc a with poison := [0x1000] }
     s.access? 5 = some a ∧ s.mayPerform a = true ∧ (s.core 0).ckptMode ≠ 1 ∧ a.orphan = false ∧ s.failing a = true) ∧
    (let a := { acc0 with kind := .pacq, stage := .ready, away := true }
     let s := { stG .u fun x => x.onLane 31 fun k => { k with wait := .permit 5 } with clk := 256, accesses := [a], turn := ev 5 0 0 }
     s.access? s.turn.unit = some a ∧ a.away = true ∧ a.stage = .ready ∧ a.queued = false ∧ a.since + 256 ≤ s.clk) ∧
    (let a := { acc0 with kind := .atomic 0, pa := 2 ^ 51 + 0x1000 }
     (stAcc a).access? 5 = some a ∧ isHost a.pa = true ∧ a.isRequest = true ∧ (stAcc a).mayPerform a = true) ∧
    (let s := stG .u (inTx { Tx.none with validating := some true, reads := [⟨0x30000, 0x30000, 0, 2 ^ 32 - 1⟩] })
     let t := ((s.group 0 0).lane 31).tx
     t.active = true ∧ t.irrev = false ∧ t.validating.isSome = true ∧ s.validates t = true) ∧
    (let s := stG .u (inTx { Tx.none with validating := some true, reads := [⟨0x30000, 0x30000, 1, 2 ^ 32 - 1⟩] })
     s.validates ((s.group 0 0).lane 31).tx = false) := by decide +kernel

theorem test_hyp_TransactionInstructions : Issues .u [([], [dst32 (.v 639)]), ([9], []), ([], [])] ∧
    (let f : FK := ⟨0, 0, .v 1, .none, .none, 0⟩
     (st .u).target (cx .u) (txTarget f (cx .u).pc) = .ok) ∧
    (let f : FK := ⟨0, 0, .v 1, .none, .none, 1⟩
     (cx .u).act ≠ [] ∧ (st .u).target (cx .u) (txTarget f (cx .u).pc) = .trap 3) ∧
    (let s := stG .u (inTx Tx.none)
     let b := s.begun (cx .u) []
     let t := (cx .u).act.foldl (fun s l => s.endTx 0 0 l) (b.advance (cx .u))
     CanIssue s (cx .u) [3] [] ∧ (cx .u).act ≠ [] ∧ b.mayRelease 0 0 3 ((cx .u).act.filter fun l => ((b.grp (cx .u)).lane l).endsRun) = true ∧
       ((cx .u).act.filter fun l => (b.grp (cx .u)).inTx l && ((b.grp (cx .u)).lane l).tx.depth == 1) = [31] ∧ b.commitReady 0 0 31 = true ∧
       (((t.notIdem (cx .u)).onGrp (cx .u) fun y => y.mset 3 0).submitAll 0 0).isSome = true) ∧
    (st .u).mayRelease 0 0 3 [] = true :=
  ⟨issues (by decide +kernel), by decide +kernel, by decide +kernel, ⟨canIssue (by decide +kernel), by decide +kernel⟩, by decide +kernel⟩

theorem test_hyp_AbortRestoresTheLane :
    (let x := (stG .u (inTx { Tx.none with dest := .v 639 })).group 0 0
     31 < x.lanes.length ∧ (x.lane 31).tx.dest = .v 639 ∧ 639 < x.winsize) := by decide +kernel

/-! ### Copies -/

theorem test_hyp_CopiesIssue :
    (let f : FM := ⟨0, 2, 0, 0, 0, .v 4, .v 0, .none, .ct 7, 0⟩
     let s := stDesc .u 0x20000
     let uses := [src32 f.d, src64 f.a, src32 f.b, { tagUse f.c with noneOk := false }]
     CanIssue s (cx .u) [] uses ∧ (∀ l ∈ (cx .u).act, (s.grp (cx .u)).inTx l = false ∧ s.acpFail f (cx .u) l = none) ∧
       s.mayRelease 0 0 3 (cx .u).act = true ∧ s.laneEntries 0 + (cx .u).act.length ≤ 1024) ∧
    (let s := stDesc .s 0x40
     let x := s.grp (cx .s)
     CanIssue s (cx .s) [] [src32 (.s 2), src64 (.v 0), src32 (.v 0), tagUse (.ct 0)] ∧ CanIssue s (cx .s) [] [src64 (.v 2), src64 (.v 0), src32 (.v 0), tagUse .none] ∧
       x.tags.length = 8 ∧ (cx .s).act ≠ [] ∧ (cx .s).mode ≠ .u ∧ x.rd32 (.v 0) 0 = 0x40 ∧ s.spadSide (cx .s) (spadOperand (.s 2) x 0) 0x40 = none ∧
       (s.die 0).engine.length < 1024 ∧ (s.die 0).engineOf 0 0 < 64) ∧
    (let s := stG .u (vals [(0, 0x100), (1, 3)])
     let b := (s.grp (cx .u)).rd64 (.v 0) 0
     CanIssue s (cx .u) [] [src32 (.const 127), src64 .none, src64 (.v 0), tagUse (.ct 7)] ∧ bits b 63 48 = 0 ∧ bits b 31 19 = 0 ∧ bits b 47 32 = 3 ∧
       s.spadSide (cx .u) 0 (3 * 4096) = none ∧ s.spadSide (cx .u) (bits b 18 0) 12 = none) ∧
    (let s := stDesc .s 0x20000
     CanIssue s (cx .s) [] [src64 (.v 0), src64 (.v 2), src32 (.const 135), tagUse .none] ∧
       globalOperand (.v 0) true (s.grp (cx .s)) 0 % 8 = 0 ∧ (s.grp (cx .s)).rd32 (.const 135) 0 = 8) ∧
    (let s := bound (stDesc .u 0x100)
     let d := (s.grp (cx .u)).rd64 (.v 0) 0
     CanIssue s (cx .u) [] [src64 (.v 0), src64 (.v 0), src32 (.const 131)] ∧ (s.grp (cx .u)).rd32 (.const 131) 0 = 4 ∧
       bits d 63 51 = 0 ∧ bits d 31 19 = 0 ∧ bits d 18 0 % 4 = 0 ∧ bits d 50 32 % 8 = 0 ∧
       s.spadSide (cx .u) (bits d 18 0) 4 = none ∧ s.roleAnywhere 0 (s.grp (cx .u)) 15 = some (0, 0) ∧ bits d 18 0 + 4 ≤ (s.core 0).partSize 0) :=
  ⟨⟨canIssue (by decide +kernel), by decide +kernel⟩, ⟨canIssue (by decide +kernel), canIssue (by decide +kernel), by decide +kernel⟩,
    ⟨canIssue (by decide +kernel), by decide +kernel⟩, ⟨canIssue (by decide +kernel), by decide +kernel⟩, canIssue (by decide +kernel), by decide +kernel⟩

/-- A request of the copy engine: a fill of 32 bytes of memory. -/
def req0 : EngReq :=
  { id := 7, core := 0, gid := 0, uid := placedGroup.uid, slot := 0, lane := 0, mode := .u, pc := 4, seqno := 0, kind := .fill 1 4, tag := some 7, errTag := some 7,
    dst := 0x20000, src := 0, bytes := 32, done := 0, phys := false, targets := [], arrive := none, stamp := 3, fault := none, ended := false,
    moving := false, zeroed := none, irrev := false }
/-- `st` with a request of die 0. -/
def stEng (r : EngReq) (t : EventArgs) : State := { (st .u).onDie 0 fun d => { d with engine := [r] } with turn := t }

theorem test_hyp_CopyEvents :
    (let a := { acc0 with kind := .acpIn 0 8 }
     (stAcc a).access? 5 = some a ∧ a.isCopy = true ∧ (stAcc a).copyWaits a = false ∧ (stAcc a).mayPerform a = true) ∧
    (let s := stEng req0 { ev 0 7 0 with flag := true }
     s.turn.flag = true ∧ (s.die 0).engine.find? (fun r => !r.moving && s.pieceReady r) = some req0 ∧ (s.die 0).moving < 64) ∧
    (let r := { req0 with moving := true }
     let s := stEng r (ev 0 7 0)
     s.turn.flag = false ∧ (s.die 0).engine.find? (fun r => r.id == s.turn.item && r.moving) = some r) ∧
    (let r := { req0 with kind := .mcast false, done := 32, targets := [(0, 0)], arrive := some 8 }
     let s := stEng r (ev 0 7 0)
     (s.die 0).engine.find? (fun r => r.id == s.turn.item && r.done == r.bytes && !r.ended) = some r) ∧
    (let r := { req0 with done := 32, ended := true }
     let s := stEng r (ev 0 7 0)
     (s.die 0).engine.find? (fun r => r.id == s.turn.item && r.spent) = some r ∧ ((s.group? 0 0).any fun x => x.uid == r.uid) = true ∧
       7 < (s.group 0 0).tags.length) := by decide +kernel

/-! ### Token dispatch -/

/-- A record in a tile, with one row: its sequence is 2, its operator 0. -/
def rec0 : Rec :=
  { place := 3, code := 0, hdr := 1 + 4 * 2, tag := mkTag 4095 255 0, next := 0, stamp := 0, act := 0x1000, samp := 0, pen := 0, join := 1,
    joinNext := none, release := 0, entered := 0, tiles := [0] }
/-- A LIVE sequence. -/
def seq0 : Seq := ⟨1, 0, 0, 0, 0, 0, 0⟩
/-- A tile of height 8 whose first row is record 1. -/
def tiled (x : Group) : Group := { x with rows := 1, tileh := 8, tile := .held 1 :: List.replicate 7 .pad, tileTag := rec0.tag }
/-- A state in which lane 31 stands alone at an instruction and serves a tile, V0 a number, V2 0 and V4 a row header; die 0 binds `op0` and
holds a record and a sequence. -/
def stTok (m : Mode) (v : Nat) (y : Rec) : State :=
  ((bound (st1 m)).onDie 0 fun d => { d with recs := [(1, y)], seqs := [(2, seq0)] }).onGroup 0 0 fun x => tiled (vals [(0, v), (4, 9)] x)

/-- Whether no lane fails. -/
def lanesPass (s : State) (c : Ctx) (uses : List Use) (lane : Ctx → Group → State → Nat → Except TrapInfo State) : Bool :=
  ((s.begun c uses).laneFold (lane c ((s.begun c uses).grp c)) c.act).2.isEmpty
theorem passes {s : State} {c : Ctx} {uses : List Use} {lane : Ctx → Group → State → Nat → Except TrapInfo State} (h : lanesPass s c uses lane = true) :
    ((s.begun c uses).laneFold (lane c ((s.begun c uses).grp c)) c.act).2 = [] := List.isEmpty_iff.mp h
theorem failing {s : State} {c : Ctx} {uses : List Use} {lane : Ctx → Group → State → Nat → Except TrapInfo State} (h : lanesPass s c uses lane = false) :
    ((s.begun c uses).laneFold (lane c ((s.begun c uses).grp c)) c.act).2 ≠ [] := fun e => by simp [lanesPass, e] at h

theorem okOf {ε α : Type} {x : Except ε α} {a : α} (h : x.toOption = some a) : x = .ok a := by
  cases x with
  | error e => simp [Except.toOption] at h
  | ok b => simpa [Except.toOption] using h

/-- An instruction on the row that V0 names, and the same with a run of one expert. -/
def fRow : F3 := ⟨0, 0, 0, 0, .none, .v 0, .none, .none, none⟩
def fNew : F3 := ⟨0, 0, 0, 0, .v 8, .v 4, .none, .none, none⟩

theorem test_hyp_TokenRowInstructions :
    (let s := stTok .u 0 rec0
     let two := [src32 fRow.a, src32 fRow.b]
     CanIssue s (cx1 .u) [] [dstW true (.v 8), src32 (.v 0)] ∧ CanIssue s (cx1 .u) [] two ∧ CanIssue s (cx1 .u) [] [src64 .none, src32 (.v 0), src32 .none] ∧
       CanIssue s (cx1 .u) [] [dst32 (.v 8), src64 (.v 4), src32 .none, src64 .none] ∧
       ((s.begun (cx1 .u) []).rhdr (cx1 .u) 0 0 31).toOption = some rec0.hdr ∧ s.mayRelease 0 0 3 [31] = true ∧ (s.begun (cx1 .u) []).newStalls fNew (cx1 .u) = false) ∧
    (lanesPass (stTok .u 0 rec0) (cx1 .u) [] (fun c x s l => s.fwdLane fRow c x l) && lanesPass (stTok .u 0 rec0) (cx1 .u) [] (fun c x s l => s.doneLane fRow c x false l) &&
      lanesPass (stTok .u 0 rec0) (cx1 .u) [] (fun c x s l => s.doneLane fRow c x true l) && lanesPass (stTok .u 0 rec0) (cx1 .u) [] (fun c x s l => s.newRec fNew c x l) &&
      !lanesPass (stTok .u 8 rec0) (cx1 .u) [] (fun c x s l => s.fwdLane fRow c x l) && !lanesPass (stTok .u 1 rec0) (cx1 .u) [] (fun c x s l => s.doneLane fRow c x false l) &&
      !lanesPass (stTok .u 63 rec0) (cx1 .u) [] (fun c x s l => s.doneLane fRow c x true l) &&
      !lanesPass (stTok .u 0 rec0) (cx1 .u) [] (fun c x s l => s.newRec { fNew with a := .none } c x l)) = true :=
  ⟨⟨canIssue (by decide +kernel), canIssue (by decide +kernel), canIssue (by decide +kernel), canIssue (by decide +kernel), by decide +kernel⟩, by decide +kernel⟩

theorem test_hyp_ParkedRecordInstructions :
    (let s := stTok .s 1 { rec0 with place := 5 }
     CanIssue s (cx1 .s) [] [src32 fRow.a, src32 fRow.b] ∧ CanIssue s (cx1 .s) [] [src64 fRow.d, src32 fRow.a, src32 fRow.b] ∧ (cx1 .s).mode ≠ .u ∧
       s.parkedRec 1 = some (0, 1) ∧ s.mayRelease 0 0 3 [31] = true) ∧
    (lanesPass (stTok .s 1 { rec0 with place := 5 }) (cx1 .s) [] (fun c x s l => s.doneIdLane fRow c x false l) &&
      lanesPass (stTok .s 1 { rec0 with place := 5 }) (cx1 .s) [] (fun c x s l => s.doneIdLane fRow c x true l) &&
      !lanesPass (stTok .s 1 rec0) (cx1 .s) [] (fun c x s l => s.doneIdLane fRow c x true l)) = true :=
  ⟨⟨canIssue (by decide +kernel), canIssue (by decide +kernel), by decide, by decide +kernel⟩, by decide +kernel⟩

theorem test_hyp_RowsAndTheirRecords : ∀ y ∈ [rec0, { rec0 with join := 2, joinNext := some 0 }],
    let s := stTok .u 0 y
    (s.group? 0 0).isSome = true ∧ ((s.grp (cx1 .u)).heldRow 0).toOption = some 1 ∧ (s.die 0).recs.find? 1 = some y ∧ (s.grp (cx1 .u)).rd32 fRow.a 31 = 0 ∧
      (s.grp (cx1 .u)).rd32 fRow.b 31 = 0 ∧ s.isLocal 0 0 = true ∧ (s.die 0).isBound 0 = true ∧ (s.die 0).isBound 9 = false := by decide +kernel

theorem test_hyp_GateResults :
    (let f : F3 := ⟨1, 0, 0, 0, .v 8, .v 0, .const 131, .none, some 14⟩
     let s := stTok .u 0 rec0
     CanIssue s (cx1 .u) [] [{ dstRun f.d 2 false with noneOk := false }, src32 f.a, src32 f.b] ∧
       ∀ l ∈ (cx1 .u).act, (s.begun (cx1 .u) []).gatekFail f (cx1 .u) l = none) := ⟨canIssue (by decide +kernel), by decide +kernel⟩

/-- A row of record 1 that waits for, or stands in, Col unit 0; the unit; and die 0 with them. -/
def row0 : ColRow := ⟨1, rec0.tag, 0⟩
def stCol (u : Col) (t : EventArgs) : State :=
  { (st .u).onDie 0 fun d => { d with ops := [(0, op0)], recs := [(1, rec0)], cols := [(0, u)], adpcfg := 1 } with turn := t, clk := 10000 }

theorem test_hyp_TokenEvents :
    (let u := { Col.empty with waiting := [row0] }
     let s := stCol u (ev 0 1 0)
     (s.die 0).recs.find? 1 = some rec0 ∧ (s.die 0).op? ((s.die 0).canon 0) = some op0 ∧ (s.die 0).cols.find? 0 = some u ∧
       (s.die 0).firstWaiting 0 = some 1 ∧ (enterTags u.tags [rec0.tag]).isSome = true) ∧
    (let s := stCol { Col.empty with rows := [row0], tags := some row0.tag :: List.replicate 63 none } (ev 0 0 0)
     (oldestOf ((s.die 0).timedOut s.clk 0)).isSome = true ∧ ((s.die 0).timedOut s.clk 0).isEmpty = false) ∧
    (let s := { stCol { Col.empty with rows := (List.range 8).map fun i => ⟨i + 1, row0.tag, 10000⟩, tags := some row0.tag :: List.replicate 63 none } (ev 0 0 0) with clk := 10000 }
     ((s.die 0).timedOut s.clk 0).isEmpty = true ∧ (oldestOf (((s.die 0).candidates 0).filter fun x =>
       decide (shapeOf x.op.thresholds ((s.die 0).demand x.slot) ≤ x.rows.length))).isSome = true) ∧
    (let s := { (st .u).onDie 0 fun d => { d with ops := [(0, { op0 with window := 32, ready := [⟨[1], row0.tag, 8, 63, 0, 1⟩] })], deficits := [(63, 1)] } with turn := ev 0 0 0 }
     1 ≤ ((s.die 0).deficits.find? (s.die 0).lastTenant).getD 0 ∧ (s.placeable 0 (s.die 0).lastTenant).isSome = true) ∧
    (let p : Packet := ⟨3, 1, 9, 0, 0, rec0, [rec0.tag], false, none⟩
     let s := { stEv (ev 0 3 0) with packets := [p] }
     s.turn.flag = false ∧ (s.die 0).freeRecs ≠ 0 ∧ s.packets.find? (fun p => p.id == 3) = some p ∧ p.accepted = false ∧ p.pkg = s.pkg ∧ p.die = 0 ∧
       ∀ q ∈ s.packets, q.id < p.id → q.srcDie = p.srcDie → q.pkg = p.pkg → q.die = p.die → q.accepted = true) ∧
    (let p : Packet := ⟨3, 1, 9, 0, 0, rec0, [rec0.tag], true, none⟩
     let s := { stEv (ev 1 3 0) with packets := [p] }
     s.packets.find? (fun p => p.id == 3) = some p ∧ p.srcDie = 1 ∧ (p.pkg = s.pkg → p.accepted = true)) ∧
    (let h : Held := ⟨1, 0, some 2, 0, 0, [rec0.tag], ⟨0, 0, 0, 31⟩, true⟩
     let s := { (st .u).onDie 0 fun d => { d with merge := [h] } with turn := ev 0 1 0 }
     (s.die 0).merge.find? (fun h => h.rid == 1) = some h) ∧
    (let none_ := stCol { Col.empty with tags := [some row0.tag] } (ev 0 0 0)
     let some_ := stCol { Col.empty with tags := [some (mkTag 7 255 0)] } (ev 0 0 0)
     ((none_.die 0).col 0).tags.filterMap id = [row0.tag] ∧ (none_.die 0).prefetches row0.tag = false ∧
       ((some_.die 0).col 0).tags.filterMap id = [mkTag 7 255 0] ∧ (some_.die 0).prefetches (mkTag 7 255 0) = true ∧
       (some_.die 0).op? ((some_.die 0).canon 0) = some op0) ∧
    (let s := { (st .u).onDie 0 fun d => { d with ops := [(0, op0)], stallcfg := 0x0010000000005001, busySince := [(0, 0)] } with turn := ev 0 0 0, clk := 65536 }
     let d := s.die 0
     bit d.stallcfg.toNat 0 = true ∧ bits d.stallcfg.toNat 63 52 * 65536 = 65536 ∧ d.frozen.find? 0 = none ∧
       (d.ops.filter fun o => o.2.st == 1 && o.2.region == 0) ≠ [] ∧ (d.ops.all fun o => o.2.firedAt.elim true fun f => decide (f + 65536 ≤ s.clk)) = true ∧ d.busySince.find? 0 = some 0) := by decide +kernel

/-- A translation of every address of the space of root 0, of machine 0, to host memory; a core maps it to itself. -/
def tlbAll (user : Bool) : TlbEntry :=
  { asid := 0, vmid := 0, va := 0, size := 53, pa := 2 ^ 51, ipa := 0, rights1 := 7, rights2 := 7, u := user, repl := false, fold := false, leaf := 3, leafPa := 0,
    step := 53, leafPa2 := none, step2 := 0, dirty := 1, dirty2 := 0 }
/-- A state with that translation in the buffers of core 0 and die 0. -/
def mapped (user : Bool) (s : State) : State :=
  (s.onCore 0 fun k => { k with tlb := [{ tlbAll user with pa := 0 }] }).onDie 0 fun d => { d with ltlb := [tlbAll user] }

theorem test_hyp_TokenEvents_adapter :
    let s := mapped false (stCol { Col.empty with tags := [some (mkTag 7 255 0)] } (ev 0 0 0))
    (s.adapterEntry 0 op0 (mkTag 7 255 0)).isSome = true ∧ ((s.die 0).col 0).tags.filterMap id = [mkTag 7 255 0] ∧ (s.die 0).prefetches (mkTag 7 255 0) = true ∧
       (s.die 0).op? ((s.die 0).canon 0) = some op0 := by decide +kernel

/-! ### The Ridgeline -/

/-- An immediate form on V0 with destination V8. -/
def fImm (n : Nat) : FI := ⟨0, 0, 0, 0, .v 8, .v 0, none, BitVec.ofNat _ n⟩

theorem test_hyp_BoardingIsQueued :
    (let s := stTok .u 0x300 rec0
     let f := fImm 0
     CanIssue s (cx1 .u) [] [dst32 f.d] ∧ CanIssue s (cx1 .u) [] [dst32 f.d, src32 f.a] ∧ CanIssue (stI .u) (cxI .u) [] [dst32 f.d] ∧
       CanIssue (stI .u) (cxI .u) [] [dst32 f.d, src32 f.a] ∧ CanIssue (st1 .u) (cx1 .u) [] [dst32 f.d] ∧
       (s.grp (cx1 .u)).tile ≠ [] ∧ ((s.grp (cx1 .u)).rd32 f.a 31 + f.imm.toNat) % 2 ^ 32 = 0x300 ∧ (s.grp (cx1 .u)).opid = 0 ∧
       ((st1 .u).grp (cx1 .u)).tile = [] ∧ (cxI .u).act = []) ∧
    (let s := stTok .u 1 rec0
     let f := fImm 0
     CanIssue s (cx1 .u) [] [dst32 f.d, src32 f.a] ∧ (s.grp (cx1 .u)).rd32 f.a 31 % 256 ≠ (s.grp (cx1 .u)).opid) :=
  ⟨⟨canIssue (by decide +kernel), canIssue (by decide +kernel), canIssue (by decide +kernel), canIssue (by decide +kernel), canIssue (by decide +kernel),
    by decide +kernel, by decide +kernel, by decide +kernel, by decide +kernel, rfl⟩, canIssue (by decide +kernel), by decide +kernel⟩

theorem test_hyp_StatusReads :
    Issues .u [([], [dst32 (.v 639)]), ([], [dst32 (.s 3), src32 (.v 0)]), ([], [dst32 (.v 0), namedTag (.ct 7)])] ∧
    (∀ l ∈ (cx .u).act, (((st .u).grp (cx .u)).rd32 .none l + (fImm 0).imm.toNat) % 2 ^ 32 % 256 = ((st .u).grp (cx .u)).opid) ∧
    (let f : F3 := ⟨1, 0, 0, 0, .v 8, .v 0, .none, .v 4, none⟩
     CanIssue (stTok .u 0 rec0) (cx1 .u) [] [dst32 f.d, src32 f.a, src32 f.b, { srcRun f.c 1 false with noneOk := false }]) ∧
    ((stTok .u 0 rec0).grp (cx1 .u)).rd32 .none 31 < 256 ∧ (((stTok .u 0 rec0).grp (cx1 .u)).heldRow 0).toOption = some 1 ∧
      (((stTok .u 1 rec0).grp (cx1 .u)).heldRow 1).toOption = none :=
  ⟨issues (by decide +kernel), by decide +kernel, canIssue (by decide +kernel), by decide +kernel, by decide +kernel, by decide +kernel⟩

/-- A schedule entry of one FP4 block for expert 3; a PIN entry; and the operator with it. -/
def entry0 : Entry := ⟨0x10000, 1, 2, 3, 7, false, false⟩
def opRide (e : Entry) : OpSlot := { op0 with sched := [e] }
/-- An open pass of that entry, and `st` with a Ridgeline. -/
def pass0 : Pass := ⟨4, 0, 3, 0, entry0, 1, 0, [], [(0, placedGroup.uid)], none, false, 0, 0⟩
def stRidge (m : Mode) (g : Ridge) (e : Entry) (t : EventArgs) : State :=
  { mapped false (st m) with turn := t, clk := 100 }.onDie 0 fun d => { d with ops := [(0, opRide e)], ridge := g }

theorem test_hyp_RidgelineControl :
    (let s := stRidge .s Ridge.reset entry0 (ev 0 0 0)
     CanIssue s (cx .s) [] [dst32 (fImm 0).d] ∧ (cx .s).mode ≠ .u ∧ (cx .s).act ≠ [] ∧ s.mayRelease 0 0 3 [(cx .s).low] = true ∧
       (s.die 0).ridge.paused = false ∧ (s.die 0).rotationNow ≠ []) ∧
    (CanIssue (st .h) (cx .h) [] [dst32 (fImm 0).d] ∧ (cx .h).mode ≠ .u ∧ ((st .h).die 0).rotationNow = [] ∧ ((st .h).die 0).ridge.rotation = []) :=
  ⟨⟨canIssue (by decide +kernel), by decide +kernel⟩, canIssue (by decide +kernel), by decide +kernel⟩

theorem test_hyp_RidgelineEvents :
    (let s := { (st .u).onGroup 0 0 fun x => { x with boardings := [⟨false, 0, 3, 8, .v 8, 1⟩] } with turn := ev 0 0 0, clk := 8 }
     (s.group 0 0).boardings = [⟨false, 0, 3, 8, .v 8, 1⟩]) ∧
    (let s := stRidge .u Ridge.reset { entry0 with pin := true } (ev 0 0 0) |>.onGroup 0 0 fun x => { x with ride := some ⟨0, 3, 0, true, none, 0, 2⟩ }
     (s.die 0).ridge.paused = false ∧ (s.die 0).ridge.passes.length < 64 ∧ (s.pinToOpen 0).isSome = true) ∧
    (let s := stRidge .u { Ridge.reset with rotation := [⟨0, 0, 0, entry0, 0, 0⟩], stats := [⟨0, 3, 0, 0, 0, false, false⟩], turns := 1 } entry0 (ev 0 0 0)
     s.pinToOpen 0 = none ∧ (s.die 0).ridge.cursor < (s.die 0).ridge.rotation.length ∧ (s.openNext 0).isSome = true) ∧
    (let s := stRidge .u { Ridge.reset with passes := [pass0] } entry0 (ev 0 4 0)
     (s.die 0).ridge.passes.find? (fun p => p.id == 4) = some pass0) ∧
    (let p := { pass0 with next := 1, staged := [⟨0, [], [], [0], 0⟩] }
     let s := { stRidge .u { Ridge.reset with passes := [p] } entry0 (ev 0 4 0) with clk := 2 ^ 14 + 20 }
     let s := s.onCore 0 fun k => { k with landing := [⟨0, 9, 1, 0, 7, [], [], []⟩] }
     let r := (s.die 0).ridge
     r.passes.find? (fun p => p.id == 4) = some p ∧ r.hold = 64 * 256 ∧ r.hold ≠ 0 ∧ r.paused = false ∧ (s.core 0).landing ≠ [] ∧ 0 + r.hold < s.clk) ∧
    (let s := { stRidge .u Ridge.reset entry0 (ev 0 0 0) with clk := 2 ^ 14 + 20 }
     let s := s.onGroup 0 0 fun x => { x with ride := some ⟨0, 3, 0, false, none, 0, 2⟩, frozenSlot := some 0 }
     (s.group 0 0).ride.isSome = true ∧ (s.die 0).ridge.hold ≠ 0 ∧ (s.die 0).ridge.paused = false ∧ (s.group 0 0).frozenSlot = some 0 ∧
       (s.group 0 0).frozenRegion = none ∧ 0 + (s.die 0).ridge.hold < s.clk) ∧
    (let s := { (st .u).onGroup 0 0 fun x => { x with lanes := List.replicate 32 Lane.empty } with turn := ev 0 0 0 }
     (s.group? 0 0).isSome = true ∧ s.mayRetire 0 (s.group 0 0) = true ∧ (s.group 0 0).gid = 0) ∧
    (stEv (ev 0 0 0)).mayRetire 0 ((stEv (ev 0 0 0)).group 0 0) = false := by decide +kernel

/-- The block that BLOCK_READ_ISSUE reads can be read. -/
theorem test_hyp_RidgelineEvents_read :
    let s := stRidge .u { Ridge.reset with passes := [pass0] } entry0 (ev 0 4 0)
    ((s.nextReader 0).any fun r => r.1 == pass0 && r.2.toOption.any fun o => o.bad == 0) = true := by
  decide +kernel

/-! ### Decode services -/

/-- A state whose translations stand, with numbers in V0 and V4 of every lane, lane 31 alone issuing, and die 0 with two sequences, the second ENDED. -/
def stServe (m : Mode) (v w : Nat) : State :=
  ((mapped (m == .u) (st1 m)).onDie 0 fun d => { d with seqs := [(2, seq0), (3, { seq0 with st := 2 })], scancfg := 1 }).onGroup 0 0 (vals [(0, v), (4, w)])
/-- Host memory with a penalty block at address 0x40: counts at 0x1000, a vocabulary of 100 tokens. -/
def stPenal (v : Nat) : State := (stServe .u v 0x40).write (2 ^ 51 + 0x40) 32 (0x1000 + 100 * 2 ^ 128)
/-- Whether no lane fails, and whether the failing ones trap. -/
def serves (s : State) (c : Ctx) (lane : Ctx → Group → State → Nat → Except LaneFail State) : Bool :=
  ((s.advance c).serveFold (lane c (s.grp c)) c.act).2.isEmpty
def trapsAll (s : State) (c : Ctx) (lane : Ctx → Group → State → Nat → Except LaneFail State) : Bool :=
  ((s.advance c).serveFold (lane c (s.grp c)) c.act).2.all fun e => match e.2 with | .trap _ => true | _ => false
/-- Fields of a decode service: A in V0, B the pair of V registers from V4. -/
def fServe : F3 := ⟨0, 0, 0, 0, .v 8, .v 0, .v 4, .none, none⟩
def fServe64 : F3 := ⟨0, 0, 0, 0, .v 8, .v 4, .none, .none, none⟩

theorem test_hyp_DecodeServiceInstructions :
    (let s := stPenal 99
     CanIssue s (cx1 .u) [] [dst32 fServe.d, src32 fServe.a, src64 fServe.b] ∧ (s.grp (cx1 .u)).inTx 31 = false ∧
       serves s (cx1 .u) (fun c x s l => s.penalLane fServe c x (.v 8) l) = true ∧ serves s (cx1 .u) (fun c x s l => s.cntLane fServe c x false (.v 8) l) = true) ∧
    (let s := stPenal 100
     serves s (cx1 .u) (fun c x s l => s.penalLane fServe c x (.v 8) l) = false ∧ trapsAll s (cx1 .u) (fun c x s l => s.penalLane fServe c x (.v 8) l) = true ∧
       serves s (cx1 .u) (fun c x s l => s.cntLane fServe c x false (.v 8) l) = false ∧ trapsAll s (cx1 .u) (fun c x s l => s.cntLane fServe c x false (.v 8) l) = true) ∧
    (CanIssue (stServe .s 3 0x40) (cx1 .s) [] [dst32 fServe.d, src64 (.v 4)] ∧ CanIssue (stServe .s 3 0x40) (cx1 .s) [] [dst32 fServe.d, src32 fServe.a] ∧
       CanIssue (stServe .s 3 0x40) (cx1 .s) [] [dst64 fServe.d, src32 fServe.a] ∧ (cx1 .s).mode ≠ .u ∧ ((stServe .s 3 0x40).grp (cx1 .s)).inTx 31 = false) ∧
    Issues .u [([], [{ dstRun (.v 632) 4 false with noneOk := false }, src64 .none, src64 (.v 0), src64 (.s 1)])] :=
  ⟨⟨canIssue (by decide +kernel), by decide +kernel⟩, by decide +kernel, ⟨canIssue (by decide +kernel), canIssue (by decide +kernel), canIssue (by decide +kernel), by decide +kernel⟩,
    issues (by decide +kernel)⟩

/-- An admission block for host memory: SAMP 1, PEN 2, DONE 8, tenant 5, no automaton. -/
def admission : Nat := 1 + 2 * 2 ^ 64 + 8 * 2 ^ 128 + 5 * 2 ^ 192 + 0xFFFF * 2 ^ 208

theorem test_hyp_AdmissionMakesALiveSlot :
    (let s := (stServe .s 3 0x40).write (2 ^ 51 + 0x40) 32 admission
     let a := (s.grp (cx1 .s)).rd64 (.v 4) 31 % 2 ^ 53
     (s.die 0).freeSeq = some 0 ∧ a % 8 = 0 ∧
       s.ownWaits (cx1 .s) 31 a 32 = false ∧
       ((s.agentGetSure (s.agentFor 0 0 31 0 .s) ((s.grp (cx1 .s)).lane 31).c a 32).toOption.any fun o => admissionOk o.value) = true) ∧
    (let s := (stServe .s 3 0x40).write (2 ^ 51 + 0x40) 32 (4 * 2 ^ 128)
     ((s.agentGetSure (s.agentFor 0 0 31 0 .s) ((s.grp (cx1 .s)).lane 31).c 0x40 32).toOption.any fun o => !admissionOk o.value) = true) ∧
    ((stServe .s 3 0x44).grp (cx1 .s)).rd64 (.v 4) 31 % 2 ^ 53 % 8 ≠ 0 := by decide +kernel

theorem test_hyp_ScannerRequests :
    (let s := stServe .u 3 16
     CanIssue s (cx1 .u) [] [dst32 (.v 8), src32 (.v 0), src32 .none, src32 (.v 4)] ∧ CanIssue s (cx1 .u) [] [dst32 (.v 8), src32 (.v 0)] ∧
       CanIssue s (cx1 .u) [] [dst32 (.v 8), src32 (.v 0), src32 .none] ∧ (cx1 .u).act ≠ [] ∧ (s.grp (cx1 .u)).inTx 31 = false ∧
       (s.grp (cx1 .u)).rd32 (.v 0) 31 = 3 ∧ ((s.die 0).seq? 3).isSome = true ∧ (s.die 0).scanOn = true ∧ (s.die 0).scanq.length + 1 ≤ 1024 ∧
       (s.grp (cx1 .u)).rd32 (.v 4) 31 = 16 ∧ (s.core 0).spadFail 0 0 16 = none) ∧
    (let r : ScanReq := ⟨7, 6, 0, 0, 31, 2, .flush, .v 8⟩
     let s := { (stServe .u 0 0).onDie 0 fun d => { d with scanq := [r, { r with id := 8 }] } with turn := ev 0 0 0 }
     (s.die 0).scanq = [r, { r with id := 8 }] ∧ (s.die 0).scanOn = true ∧ (s.die 0).seq? r.seq = some seq0) :=
  ⟨⟨canIssue (by decide +kernel), canIssue (by decide +kernel), canIssue (by decide +kernel), by decide +kernel⟩, by decide +kernel⟩

/-! ### KV blocks -/

/-- A descriptor of a space (R356): pool 0x100000, table 0x200000, links 0x210000, free map 0x220000, forks 0x300000, heads 0x400000, chain pool
0x500000, chain links 0x510000, chain free map 0x520000; one block of 1,024 bytes, two chain blocks, keys of 8 BF16 elements, 64 buckets. -/
def space0 : Nat :=
  [(0, 0x100000), (8, 0x200000), (0x10, 0x210000), (0x18, 0x220000), (0x20, 0x300000), (0x28, 0x400000), (0x30, 0x500000), (0x38, 0x510000),
    (0x40, 0x520000), (0x48, 1), (0x4C, 2), (0x50, 1024), (0x54, 8), (0x57, 6), (0x59, 1)].foldl (fun v e => v + e.2 * 256 ^ e.1) 0
/-- A state with that space's descriptor in host memory, a projection set, a TABLE entry, and the operands of an event. -/
def stKv (entry : Nat) (t : EventArgs) : State :=
  let s := ((((stServe .u 0 0).onDie 0 fun d => { d with kvdir := 2 ^ 51 + 1 }).onCluster 0 fun k =>
    { k with proj := [(0, ⟨0, 8, List.replicate 16 (List.replicate 8 0)⟩)] }).write (2 ^ 51) 128 space0).write (2 ^ 51 + 0x200000) 8 entry
  { s with turn := t }
/-- A lane's request. -/
def kv0 (kind : KvKind) : KvReq :=
  { id := 7, core := 0, gid := 0, lane := 31, slot := 0, mode := .u, seqno := 0, pc := 4, kind := kind, word := 0, b := 0, c := 0, ofs := 0, sem := 0, scope := 0,
    rd := 0, dest := .v 8, pd := none, tag := none, clock := 1, horizon := 0, order := 1, batch := 6, since := 0, fault := none, orphan := false }

theorem test_hyp_KvRequestsAreQueued :
    (let s := stServe .u 0 0
     CanIssue s (cx1 .u) [] [dst64 (.v 8), src64 .none] ∧ CanIssue s (cx1 .u) [] [dst32 (.v 8), src64 (.v 10), src32 .none] ∧ CanIssue s (cx1 .u) [] [dst32 (.s 8), src64 (.v 10)] ∧
       CanIssue s (cx1 .u) [] [dst64 (.v 8), src64 .none, src32 .none, tagUse (.ct 7)] ∧ CanIssue s (cx1 .u) [] [dst64 (.v 8), src64 .none, src32 .none, src32 (.const 135)] ∧
       (cx1 .u).act ≠ [] ∧ (s.grp (cx1 .u)).inTx 31 = false ∧ (s.grp (cx1 .u)).rd64 .none 31 = 0 ∧ (s.grp (cx1 .u)).rd64 (.v 10) 31 = 0 ∧ (s.die 0).kvCount + 1 ≤ 4096 ∧
       s.mayRelease 0 0 3 [31] = true ∧ s.rowFail (cx1 .u) 0 4 1 = none ∧ s.rowFail (cx1 .u) 8 8 (8 * 4096) = none) :=
  ⟨canIssue (by decide +kernel), canIssue (by decide +kernel), canIssue (by decide +kernel), canIssue (by decide +kernel), canIssue (by decide +kernel), by decide +kernel⟩

/-- How the engine answers a request: 0 busy, 1 a result, 2 an address that cannot be translated, 3 a trap, 5 uncorrectable data, 4 another. -/
def kvAnswer (s : State) (r : KvReq) : Nat :=
  match s.kvRun r r.clock (kvBody (s.kvAgent r) r) with
  | .error .busy => 0
  | .ok (.done _ _, _) => 1
  | .error (.xlate _ _) => 2
  | .error (.uncorr _) => 5
  | .ok (.trap _ _ _, _) => 3
  | _ => 4

theorem test_hyp_KvEngineSteps_request :
    (let s := (stKv 0 (ev 0 7 0)).onDie 0 fun d => { d with kvq := [kv0 .map] }
     (s.die 0).kvq.find? (fun r => r.id == 7) = some (kv0 .map) ∧ (kv0 .map).waitsFor (s.die 0).kvq = false ∧
       (s.die 0).kvq.any (fun a => a.before (kv0 .map) && !a.waitsFor (s.die 0).kvq && s.kvReady a) = false ∧ kvAnswer s (kv0 .map) = 1) ∧
    kvAnswer (stKv 0x10005 (ev 0 7 0)) (kv0 .app) = 0 ∧ kvAnswer (stServe .u 0 0) (kv0 .app) = 3 ∧
    kvAnswer ((stKv 0 (ev 0 7 0)).onDie 0 fun d => { d with ltlb := [] }) (kv0 .map) = 2 ∧
    kvAnswer { stKv 0 (ev 0 7 0) with poison := [2 ^ 46] } (kv0 .map) = 5 := by decide +kernel

/-- A copy of the space's only block. -/
def cow0 : Cow := ⟨7, kv0 .app, 0, 0, 0x100000, 1, [(2 ^ 51 + 0x100000, 1024)], [([2 ^ 51 + 0x100400], 1024)], [2 ^ 51 + 0x200000], 0x200000⟩

theorem test_hyp_KvEngineSteps_others :
    (let s := (stKv 0x20005 (ev 0 7 0)).onDie 0 fun d => { d with cows := [cow0] }
     (s.die 0).cows.find? (fun w => w.id == 7) = some cow0 ∧
       (match s.kvRun cow0.req cow0.clock (cowBody (s.kvAgent cow0.req) cow0) with | .ok _ => true | _ => false) = true) ∧
    (let p : Publication := ⟨7, kv0 .kstore, 0, 0, 5, 0, 0, false, 1, [2 ^ 51 + 0x400050], 0x400050⟩
     let s := (stKv 0 (ev 0 7 0)).onDie 0 fun d => { d with pubs := [p] }
     (s.die 0).pubs.find? (fun p => p.id == 7) = some p ∧ ∀ o ∈ (s.die 0).pubs, o.space = p.space → o.seq = p.seq → o.bucket = p.bucket → p.index ≤ o.index) ∧
    (let s := (stKv 0 (ev 0 7 0)).onDie 0 fun d => { d with gathers := [kv0 (.gath false)] }
     (s.die 0).gathers.find? (fun r => r.id == 7 && r.fault.isNone && !r.waitsFor (s.die 0).gathers) = some (kv0 (.gath false)) ∧
       (match s.kvRun (kv0 (.gath false)) 1 (kvBody (s.kvAgent (kv0 (.gath false))) (kv0 (.gath false))) with | .ok (.done _ false, _) => true | _ => false) = true) := by
  decide +kernel

theorem test_hyp_CreditMerging :
    (let s := bound (stServe .u 2 0x1020)
     let f : F3 := ⟨0, 0, 0, 0, .none, .none, .v 4, .none, none⟩
     let k := (s.grp (cx1 .u)).rd32 f.b 31
     CanIssue s (cx1 .u) [] [src32 f.d, src32 f.a, src32 f.b, src32 f.c] ∧ (cx1 .u).act ≠ [] ∧ (s.grp (cx1 .u)).inTx 31 = false ∧ k < 2 ^ 28 ∧
       k % 16 < s.kbarn 0 (s.grp (cx1 .u)) ∧ s.roleOf 0 (s.grp (cx1 .u)) (bits k 7 4) = some (0, 0) ∧ credRange (s.core 0) 0 0 (credBytes k) = none ∧
       s.mayRelease 0 0 1 [31] = true) ∧
    (let s := stServe .s 0 0x40
     CanIssue s (cx1 .s) [] [src64 (.v 4), src32 (.const 135), src32 .none] ∧ (cx1 .s).mode ≠ .u ∧ (s.grp (cx1 .s)).rd64 (.v 4) 31 = 0x40 ∧
       (s.grp (cx1 .s)).rd32 (.const 135) 31 = 8 ∧ clusterOf 0 = some 0 ∧ s.ownWaits (cx1 .s) 31 0x40 256 = false ∧
       (let row := { s.newAccess (cx1 .s) 31 ⟨0, 0, 0, 0, 0, .none, .none, .none, .none, 0⟩ (.proj 0 8 0) 0x40 256 .none 0 with data := 0x40, mask := 0 }
        let r := (s.advance (cx1 .s)).addAccess row
        s.logBlocks row = false ∧
        (r.agentGetSure (r.agentFor 0 0 31 0 .s) (r.withClocks { row with id := s.nextId }).c 0x40 256).isOk = true)) ∧
    (let a : CredArrival := ⟨0, 0, placedGroup.uid, 0, 0, 1, 0, 0, 0, 0, false, 0⟩
     let s := { (bound (st .u)).onCluster 0 fun k => { k with kbar := [(0, ⟨[placedGroup.uid], 1, 0, 0, 0⟩)], creds := [(0, ⟨[a], []⟩)] } with turn := ev 0 0 0 }
     ((s.cluster 0).creds.find? 0).getD CredUnit.empty = ⟨[a], []⟩ ∧ (((s.cluster 0).kbar.find? 0).getD Barrier.reset).arrived.length =
       (((s.cluster 0).kbar.find? 0).getD Barrier.reset).expected) ∧
    (let a : CredArrival := ⟨0, 0, placedGroup.uid, 0, 0, 2, 0, 0, 0, 0, false, 0⟩
     let s := { (bound (st .u)).onCluster 0 fun k => { k with kbar := [(0, ⟨[placedGroup.uid], 2, 0, 0, 0⟩)], creds := [(0, ⟨[a], []⟩)] } with turn := ev 0 0 0 }
     (((s.cluster 0).kbar.find? 0).getD Barrier.reset).arrived.length ≠ (((s.cluster 0).kbar.find? 0).getD Barrier.reset).expected) :=
  ⟨⟨canIssue (by decide +kernel), by decide +kernel⟩, ⟨canIssue (by decide +kernel), by decide +kernel⟩, by decide +kernel, by decide +kernel⟩

/-! ### Operators, calls and returns -/

/-- `bound` with a hot operator that may be cloned, and with a clone whose operator has gone cold. -/
def stHot (t : EventArgs) : State :=
  { (st .u).onDie 0 fun d => { d with ops := [(0, { op0 with roles := some 0 :: List.replicate 15 none, hotSince := some 0 })] } with turn := t, clk := 5000 }
def stCold : State :=
  { (st .u).onDie 0 fun d => { d with ops := [(0, { op0 with coldSince := some 0 }), (1, { op0 with cloneOf := some 0 })] } with turn := ev 0 1 0, clk := 5000 }

theorem test_hyp_BindingOperators :
    Issues .s [([], [dst32 (.v 8), src64 (.v 0), src32 (.v 4)]), ([], [dst32 (.s 8), src32 (.const 127)])] ∧ (cx .s).mode ≠ .u ∧ (cx .s).act ≠ [] ∧ (cxI .s).act = [] ∧
    (let s := stHot (ev 0 0 0)
     let o := { op0 with roles := some 0 :: List.replicate 15 none, hotSince := some 0 }
     let p := { o with roles := mapRoles o.roles (s.spareCores 0 0), cloneOf := some 0, ready := [], lastRole := 0, hotSince := none, coldSince := none,
                       firedAt := none, leaves := [], clone := false, st := 1 }
     (s.die 0).op? 0 = some o ∧ (List.range 256).find? (fun i => ((s.die 0).op? i).isNone) = some 1 ∧ ((s.die 0).clonesOf 0).length < o.cloneMax ∧
       o.cores.length ≤ (s.spareCores 0 0).length ∧ (s.die 0).kbarFails p = false ∧ (s.die 0).entriesHeld + p.sched.length ≤ 65536) ∧
    ((stCold.die 0).op? 1 = some { op0 with cloneOf := some 0 } ∧ (stCold.die 0).op? 0 = some { op0 with coldSince := some 0 }) :=
  ⟨issues (by decide +kernel), by decide, by decide, rfl, by decide +kernel, by decide +kernel⟩

theorem test_hyp_CallsTakeTheirTraps : Issues .u [([], [])] ∧ Issues .s [([], [])] ∧ Issues .h [([], [])] ∧ (cx .s).mode ≠ .h ∧ (cx .h).mode = .h :=
  ⟨issues (by decide +kernel), issues (by decide +kernel), issues (by decide +kernel), by decide, rfl⟩

/-- Vectors of slot 0 at the placed line, whose pages core 0 maps. -/
def vectored (s : State) : State := (mapped false s).onCore 0 fun k => { k with svec := List.replicate 4 0x10000, hvec := 0x10000 }

theorem test_hyp_TrapEntrySavesTheLane :
    (let s := vectored (st1 .u)
     let x := s.group 0 0
     (s.group? 0 0).isSome = true ∧ 31 < x.lanes.length ∧ (x.lane 31).tx.active = false ∧ (x.lane 31).traps.length < 4 ∧
       trapMode (s.core 0).hdeleg .u 0 = .s ∧ trapMode (s.core 0).hdeleg .s 22 = .h ∧
       s.vectorOk 0 0 .s ((s.core 0).vector 0 .s 0) = true ∧ s.vectorOk 0 0 .h ((s.core 0).vector 0 .h 0) = true) := by decide +kernel

/-- A trap-stack entry of U mode, and the lanes of a group with some. -/
def entry1 (kind : Nat) (a : Option Nat) : TrapEntry := ⟨8, 0, 0x8001, kind, 0, 0, 0, a⟩
def trapped (es : List TrapEntry) (x : Group) : Group := x.onLanes x.live fun _ k => { k with traps := es }

theorem test_hyp_ReturnsRestoreTheLane :
    CanIssue (stG .s (trapped [entry1 0 none])) (cx .s) [] [] ∧ CanIssue (stG .h (trapped [entry1 22 none])) (cx .h) [] [] ∧ CanIssue (st .s) (cx .s) [] [] ∧
    (∀ l ∈ (cx .s).act, (((stG .s (trapped [entry1 0 none])).grp (cx .s)).lane l).traps ≠ []) ∧
    (let x := (stG .s (trapped [entry1 0 none])).group 0 0
     31 < x.lanes.length ∧ (x.lane 31).traps = [entry1 0 none] ∧ (entry1 0 none).access = none) :=
  ⟨canIssue (by decide +kernel), canIssue (by decide +kernel), canIssue (by decide +kernel), by decide +kernel, by decide +kernel⟩

/-! ### Privileged state -/

theorem test_hyp_PrivilegedRegisterAccess :
    Issues .s [([], [dst64 (.v 638)]), ([], [dst32 (.s 3)]), ([], [src64 (.v 4)]), ([], [src64 (.v 4), dst64 (.v 8)]), ([], [src32 .none])] ∧
    (let s := st .h
     ([0, 8, 11, 16, 19, 21, 22, 24, 25, 26, 32, 35, 47].all fun n => s.prAllowed true n (cx .h) (s.grp (cx .h))) = true ∧
     ([0, 1, 8, 16, 20, 21, 22, 47, 64, 96].all fun n => s.prAllowed false n (cx .h) (s.grp (cx .h))) = true ∧
     (s.core 0).spmapNew = none ∧ (s.core 0).accownNew = none ∧ (s.core 0).spmapBad 0x6000 = false) ∧ Issues .h [([], [src64 (.v 4)]), ([], [src64 (.v 4), dst64 (.v 8)])] :=
  ⟨issues (by decide +kernel), by decide +kernel, issues (by decide +kernel)⟩
theorem test_hyp_RegisterWriteBits : (prMask .h 24).testBit 0 = true ∨ (prMask .h 21).testBit 0 = true := by decide

/-- A halting instruction on the group that V0 names, of lanes 0 to 15. -/
def fHalt : FK := ⟨0, 0, .v 8, .v 0, .none, 0xFFFF⟩

theorem test_hyp_HaltingGroups :
    CanIssue (stDesc .s 0) (cx .s) [] [dst32 (.v 8), src32 (.v 0)] ∧ CanIssue (stDesc .s 0) (cx .s) [] [dst64 (.v 8), src32 (.v 0)] ∧
    CanIssue (stI .s) (cxI .s) [] [dst32 (.v 8), src32 (.v 0)] ∧ CanIssue (stI .s) (cxI .s) [] [dst64 (.v 8), src32 (.v 0)] ∧ (cx .s).mode ≠ .u ∧ (cx .s).act ≠ [] ∧
    ((stDesc .s 0).haltTarget fHalt (cx .s)).toOption = some (some 0) ∧ ((stDesc .s 1).haltTarget fHalt (cx .s)).toOption = some none ∧
    ((stDesc .s 32).haltTarget fHalt (cx .s)).toOption = none ∧
    (let s := ((stDesc .s 0).begun (cx .s) []).advance (cx .s)
     (∀ l ∈ s.haltLanes 0 0 fHalt, ((s.group 0 0).lane l).tx.active = false) ∧ (s.kill 0 0 (s.haltLanes 0 0 fHalt)).isSome = true) :=
  ⟨canIssue (by decide +kernel), canIssue (by decide +kernel), canIssue (by decide +kernel), canIssue (by decide +kernel), by decide, by decide, by decide +kernel,
    by decide +kernel, by decide +kernel, by decide +kernel⟩

theorem test_hyp_FreezeAndBudget : Issues .h [([], [])] ∧ Issues .s [([], [src32 (.v 639)])] ∧ (cx .h).act ≠ [] ∧ (cxI .h).act = [] ∧
    (let s := { stG .u fun x => x.onLane 31 fun k => { k with budget := some 0 } with turn := ev 0 0 31 }
     ((s.group 0 0).lane 31).budget = some 0 ∧ ((s.group 0 0).lane 30).budget ≠ some 0) :=
  ⟨issues (by decide +kernel), issues (by decide +kernel), by decide, rfl, by decide +kernel⟩

/-- An invalidation of page 0 with no lane to wake, and a state in which it runs. -/
def inval0 : Inval := ⟨5, 0, 0, 0, [⟨0, 0, 0, 0⟩], []⟩

theorem test_hyp_TranslationShootdown : Issues .s [([], [src64 (.v 0), src32 (.v 1)]), ([], [src32 (.v 0)]), ([], [])] ∧ Issues .h [([], [src32 (.v 0)])] ∧
    (∀ l ∈ (cx .s).act, bits (((st .s).grp (cx .s)).rd32 (.v 0) l) 15 0 = 0 ∧ bits (((st .s).grp (cx .s)).rd32 (.v 0) l) 31 28 = 0) ∧
    (st .s).mayRelease 0 0 3 (cx .s).act = true ∧
    (let s := { stAcc acc0 with invals := [inval0] }
     s.invals.find? (fun i => i.id == s.turn.unit) = some inval0 ∧ (∀ p ∈ inval0.passes, ∀ q ∈ (s.die p.1).ridge.passes, q.id ≠ p.2)) ∧
    (let s := { stEv (ev 5 0 0) with invals := [inval0] }
     s.invals.find? (fun i => i.id == s.turn.unit) = some inval0 ∧ (∀ a ∈ s.accesses, s.beforeSwitch inval0 a = false) ∧ s.kvBeforeSwitch inval0 = false) :=
  ⟨issues (by decide +kernel), issues (by decide +kernel), by decide +kernel, by decide +kernel, by decide +kernel, by decide +kernel⟩

theorem test_hyp_PagerAnswers : Issues .s [([], [dst32 (.v 8), src64 (.v 0)]), ([], [])] ∧
    (∀ l ∈ (cx .s).act, ((stDesc .s 0x40).grp (cx .s)).rd64 (.v 0) l % 8 = 0) ∧ ((stDesc .s 0x40).recordRead (cx .s) 0x40 31).isOk = true ∧ (stDesc .s 0x40).mayRelease 0 0 3 (cx .s).act = true ∧
    CanIssue (stG .s (trapped [entry1 19 none])) (cx .s) [] [(stG .s (trapped [entry1 19 none])).replayUse ⟨0, 0, .v 0, .none, .none, 0⟩] ∧
    (((stG .s (trapped [entry1 19 none])).errored (cx .s) 31).toOption = some none) ∧ ((st .s).errored (cx .s) 31).toOption = none ∧
    ((st .s).grp (cx .s)).step = [] ∧ (cx .s).act ≠ [] ∧ (cxI .s).act = [] :=
  ⟨issues (by decide +kernel), by decide +kernel, by decide +kernel, by decide +kernel, canIssue (by decide +kernel), by decide +kernel, by decide +kernel,
    by decide +kernel, by decide, rfl⟩

/-- The operands of a save or load of slot 1 at address 0x20000, whose registers hold the address and the slot. -/
def fCtx : F3 := ⟨0, 0, 0, 0, .v 8, .v 0, .v 4, .none, none⟩
def stCtx (a b : Nat) : State := (st1 .h).onGroup 0 0 (vals [(0, a), (4, b)])

theorem test_hyp_ContextSaveAndLoad_refused :
    CanIssue (stCtx 0x20000 1) (cx1 .h) [] [dst32 fCtx.d, src64 fCtx.a, src64 fCtx.b] ∧ CanIssue (stI .h) (cxI .h) [] [dst32 fCtx.d, src64 fCtx.a, src64 fCtx.b] ∧
    (cx1 .h).mode = .h ∧ (cx1 .h).act ≠ [] ∧ (cxI .h).act = [] ∧ (stCtx 0x20000 0).ctxsvCode (cx1 .h) 0x20000 0 = some 1 ∧
    (stCtx 0x20008 1).ctxsvCode (cx1 .h) 0x20008 1 = some 2 ∧ (stCtx 0x20000 1).ctxldCode (cx1 .h) 0x20000 1 none = some 3 :=
  ⟨canIssue (by decide +kernel), canIssue (by decide +kernel), rfl, by decide, rfl, by decide +kernel, by decide +kernel, by decide +kernel⟩

/-- Slot 1 of core 0 is at rest and can be saved; the area that this leaves can be loaded. -/
theorem test_hyp_ContextSaveAndLoad :
    (let s := stCtx 0x20000 1
     let t := s.beginSave (cx1 .h) 1
     s.ctxsvCode (cx1 .h) 0x20000 1 = none ∧ (s.core 0).saving = none ∧ t.slotQuiet 0 1 = true ∧ (t.saveSlot (cx1 .h) 1 0x20000).isOk = true) ∧
    (let s := (stCtx 0x20000 1).write 0x20000 (((stCtx 0x20000 1).ctxArea 0 1 0).length) (bytesNat ((stCtx 0x20000 1).ctxArea 0 1 0))
     ((s.ctxRead (cx1 .h) 0x20000).toOption.join.any fun r => (s.ctxldCode (cx1 .h) 0x20000 1 (some r)).isNone && (s.core 0).fits 1 r.i) = true) := by
  decide +kernel

/-! ### Host, peers and power -/

/-- The operands of a host or peer request. -/
def evAddr (addr size : Nat) : EventArgs := { EventArgs.zero with addr := addr, size := size, value := 0x1234 }

theorem test_hyp_HostPortEvents :
    ((stEv (evAddr 0x10000 8)).turn.size = 8 ∧ (stEv (evAddr 0x10000 8)).turn.addr % 8 = 0 ∧ (stEv (evAddr 0x10000 8)).turn.addr < 2 ^ 24) ∧
    ¬((stEv (evAddr 0x10004 8)).turn.size = 8 ∧ (stEv (evAddr 0x10004 8)).turn.addr % 8 = 0 ∧ (stEv (evAddr 0x10004 8)).turn.addr < 2 ^ 24) ∧
    (stEv (evAddr (2 ^ 36 - 4) 8)).windowAt (2 ^ 36 - 4) 8 = none ∧
    (let s := stEv (evAddr 0x20000 8)
     s.windowAt 0x20000 8 = some 0x20000 ∧ ((s.agentGet (portAgent 0x20000 portalHash) (s.clockAt 0x20000 8) 0x20000 8).toOption.any fun o => o.bad == 0) = true ∧
       (s.agentPut (portAgent 0x20000 portalHash) (s.clockAt 0x20000 8) 0x20000 8 s.turn.value).isOk = true ∧
       hostTakes s.turn.hostOp s.turn.size = true ∧ s.turn.addr % s.turn.size = 0 ∧ s.isHbm 0x20000 = true) := by decide +kernel

/-- A state whose PSL ports are up. -/
def stPsl (t : EventArgs) : State := { stEv t with pslstat := 0x3FFFF, pkgcfg := 0x0100000000000001 }

theorem test_hyp_PackageEvents :
    (stEv (evAddr 0x20000 8)).peerMay 0x20000 8 = false ∧
    (let s := stPsl (evAddr 0x20000 8)
     s.peerMay 0x20000 8 = true ∧ s.turn.peerOp = .read ∧ ((s.agentGet (portAgent 0x20000 (hashOf 0)) 0 0x20000 8).toOption.any fun o => o.bad == 0) = true ∧
       (s.agentPut (portAgent 0x20000 (hashOf 0)) 0 0x20000 8 0x1234).isOk = true) ∧
    (let s := stPsl (ev 17 0 0)
     s.pslstat.toNat.testBit s.turn.unit = true ∧ s.turn.unit < 18) ∧
    (let s := { stEv (ev 1 0 0) with lattol := 1, clk := 65536 }
     s.turn.unit = s.deepest ∧ s.turn.unit ≠ s.power) ∧
    (let s := { State.reset with lattol := 1, clk := 65536, turn := { EventArgs.zero with wake := .lattol } }.enterPower 1
     s.turn.wake = .lattol ∧ s.power ≠ 0) ∧
    (State.reset.isReady = false ∧ State.reset.inRecovery = false ∧ State.reset.turn.boot.stepsFailed = 0 ∧ State.reset.journal.open_ = none) ∧
    ({ EventArgs.zero with boot := ⟨1, 0, 0, 0, 0⟩ } : EventArgs).boot.stepsFailed.getLsbD 0 = true ∧
    (let s := { State.reset with bootstat := 2, turn := { EventArgs.zero with flag := true } }
     s.inRecovery = true ∧ s.turn.flag = true) := by decide +kernel

/-! ### Steps -/

/-- A lane's pending event of a kind. -/
def pend (kind : Nat) : Pending := ⟨kind, 0, 0, 0, none, none⟩

theorem test_hyp_SelectionAndEvents :
    (let s := stEv (ev 1 0 0)
     (s.core 1).fuClk ≠ some s.clk ∧ ((s.grantFus 1 0).candidate 1 0 fun _ _ => true).isNone = true) := by decide +kernel
theorem test_hyp_SelectionAndEvents_chosen :
    (let s := { stEv (ev 0 0 0) with cur := none }
     let t := s.grantFus 0 0
     let granted := (t.core 0).fuGranted.contains 0
     granted = false ∧ (t.candidate 0 0 fun x ls => granted || !t.nextIsFnu 0 x ls).isSome = true) ∧
    (let s := { stG .u fun x => x.onLane 31 fun k => { k with pend := [pend 21, pend 18] } with turn := ev 0 0 31 }
     ((s.group 0 0).lane 31).firstPending = some (pend 18)) ∧
    (let s := { stG .s fun x => x.onLane 31 fun k => { k with pend := [pend 21] } with turn := ev 0 0 31 }
     ((s.group 0 0).lane 31).firstPending = some (pend 21) ∧ ((s.group 0 0).lane 31).mode ≠ .u) ∧
    (let s := { stG .s fun x => x.onLane 31 fun k => { k with pend := [pend 16], wait := .reply 5 } with turn := ev 0 0 31 }
     ((s.group 0 0).lane 31).firstPending = some (pend 16) ∧ ((s.group 0 0).lane 31).wait.isReply = true) := by decide +kernel

theorem test_hyp_PrivilegeFaults :
    (st .u).ctx? = some (cx .u) ∧ (cx .u).mode = .u ∧ (cx .u).mode ≠ .h ∧
    ([[], [dst32 (.v 8)], [dst64 (.v 8)], [src32 (.v 0)], [src64 (.v 0)], [dst32 (.v 8), src64 (.v 0), src32 (.v 4)], [dst32 (.v 8), src64 (.v 0), src64 (.v 4)],
      [src64 (.v 0), src32 (.v 1), src32 (.v 2)]].all fun us =>
      !us.any Use.illegal && !us.any (Use.outside ((st .u).grp (cx .u)).winsize)) = true ∧ (10 : Fin 16).val < 12 := by decide +kernel

theorem test_hyp_OperandFaults :
    (let x := ((st .u).onGroup 0 0 fun x => { x with window := List.range 1 }).grp (cx .u)
     [dst64 (.v 31), src64 (.v 0), src64 (.v 0)].any Use.illegal = true ∧ [dst32 (.const 128), src32 (.v 0)].any Use.illegal = true ∧ ¬(12 : Fin 16).val < 12 ∧
       [dst32 (.v 32), src32 (.v 0)].any Use.illegal = false ∧ [dst32 (.v 32), src32 (.v 0)].any (Use.outside x.winsize) = true) ∧
    (st .u).ctx? = some (cx .u) := by decide +kernel

/-- `st` fetches its word, which decodes. -/
theorem test_hyp_StepRunsTheDecodedInstruction :
    (let s := st .u
     let i := (s.cur).getD ⟨0, 0, 0, false, false, false, 0, ⟨false, 15⟩, []⟩
     s.cur.isSome = true ∧ s.asyncLane i = none ∧ s.ctx? = some (cx .u) ∧ s.ckptHalted (cx .u) = [] ∧ pcLegal (cx .u).pc = true ∧
       s.pageWaits 0 0 (lineOf (cx .u).pc) = false ∧ s.entryWaits s 0 0 = false ∧ s.power = 0 ∧
       ((s.fetch (cx .u)).toOption.any fun r =>
         let line := r.1.pread r.2 64
         !lineReserved (line % 2 ^ 32) && parityOk (line % 2 ^ 32) 0 (slotWord line 0) && !r.1.poisoned r.2 64 && bit (line % 2 ^ 32) 0 &&
         !bit (line % 2 ^ 32) 5 && (decode (BitVec.ofNat 96 (slotWord line 0))).isOk) = true) ∧
    (let s := State.reset.withFetchWord 96 0xFF007803FFFFFFFFFFC00000
     ((s.fetch (cx .u)).toOption.any fun r => !(decode (BitVec.ofNat 96 (slotWord (r.1.pread r.2 64) 0))).isOk) = true) := by decide +kernel

theorem test_hyp_StepRunsTheNextEvent :
    (let e : Turn := ⟨3, .lattolWrite, { EventArgs.zero with value := 5 }⟩
     let s := { State.reset with sched := [e] }
     s.cur = none ∧ s.sched = [e] ∧ e.event.isEvent = true ∧ ({ ({ s with sched := [] } : State).passTime 3 with turn := e.args } : State).mayHappen e.event = true) ∧
    (Instr.sret).isEvent = false ∧ ({ State.reset with bootstat := 2 } : State).mayHappen .issueSelect = false := by decide +kernel

theorem test_hyp_DecodeOfEncode : (Instr.iadd ⟨0, 0, 0, 0, .v 5, .v 3, .const 134, .none, none⟩).legal = true ∧
    (Instr.iadd ⟨0, 0, 0, 0, .v 5, .v 3, .const 134, .none, none⟩).isEvent = false := by decide +kernel

/-- The canonical form of memory. -/
theorem test_hyp_MemoryLaws : Memory.wf State.reset.mem = true ∧ Memory.wf (State.reset.write 5 8 0x1122).mem = true := by decide +kernel

/-! ### Steps of the machine -/

/-- A step that answers a next state. -/
def nextOf (o : Host.Outcome State Fault Refusal) : Option State := match o with | .next s => some s | _ => none

/-- `st` steps (PowerStateIsAllowed). -/
theorem test_step_completes : (nextOf (step (st .u))).isSome = true := by decide +kernel
/-- The word of IADD.SI32 V5, V3, 7 (R62) steps to a state in which V5 is 7 in every lane, where V3 is 0. -/
theorem test_iadd_step : (nextOf (step (State.reset.withFetchWord 96 0x230078000500F86FFFC00000))).elim false
    (fun t => (List.range 32).all fun l => (t.group 0 0).rd32 (.v 5) l == 7) = true := by decide +kernel

/-! ### Results that the spec works out -/

/-- The state after an instruction that completes. -/
def after (i : Instr) (s : State) : State := (nextOf (exec i s)).getD State.reset
/-- The state after an instruction, with the same set issuing again at a next instruction. -/
def andThen (i : Instr) (s : State) : State := { after i s with cur := s.cur }
/-- The V register n of lane 3. -/
def v3 (n : Fin 640) (s : State) : Nat := (s.group 0 0).rd32 (.v n) 3

/-- R118: 0x0000_0002_0000_0000_FFFF_FFFF_FFFF_FFFF + 3 by two chained additions. -/
theorem test_iaddc_chain :
    let s := stG .u (vals [(0, 0xFFFFFFFF), (1, 0xFFFFFFFF), (2, 0), (3, 2), (4, 3)])
    let t := andThen (.iaddcAdd ⟨0, 3, 0, 0, .v 8, .v 0, .v 4, .none, some 1⟩) s
    let u := after (.iaddcAddc ⟨1, 3, 0, 0, .v 10, .v 2, .v 6, .none, some 1⟩) t
    (v3 8 t, v3 9 t, ((t.group 0 0).lane 3).pred.getLsbD 1, v3 10 u, v3 11 u, ((u.group 0 0).lane 3).pred.getLsbD 1) = (2, 0, true, 1, 2, false) := by decide +kernel
/-- R117: ISUB.SAT.UI32 of 3 − 5 gives 0; IMULH.SI32 of −2 and 3 gives the high word of −6. -/
theorem test_integer_examples : v3 8 (after (.isub ⟨0, 1, 0, 1, .v 8, .v 0, .v 1, .none, none⟩) (stG .u (vals [(0, 3), (1, 5)]))) = 0 ∧
    v3 8 (after (.imulh ⟨0, 0, 0, 0, .v 8, .v 0, .v 1, .none, none⟩) (stG .u (vals [(0, 0xFFFFFFFE), (1, 3)]))) = 0xFFFFFFFF := by decide +kernel
/-- R123: BFE.S of 0xF00 at 8 with length 4 gives all ones. R125: C = 0x27272707 gives 0xFFFFFF88. -/
theorem test_field_examples :
    v3 8 (after (.bfe ⟨1, 0, 0, 0, .v 8, .v 0, .v 1, .v 2, none⟩) (stG .u (vals [(0, 0xF00), (1, 8), (2, 4)]))) = 0xFFFFFFFF ∧
    v3 8 (after (.bysel ⟨0, 0, 0, 0, .v 8, .v 0, .v 1, .v 2, none⟩) (stG .u (vals [(0, 0x44332211), (1, 0x88776655), (2, 0x27272707)]))) = 0xFFFFFF88 := by
  decide +kernel
/-- R153: FEXPM.FP32 of 3, 5 and 1 gives 0.25. -/
theorem test_fexpm_example :
    v3 8 (after (.fexpm ⟨0, 0, 0, 0, .v 8, .v 0, .v 1, .v 2, none⟩) (stG .u (vals [(0, 0x40400000), (1, 0x40A00000), (2, 0x3F800000)]))) = 0x3E800000 := by
  decide +kernel
/-- R123: BFI of an empty field at 32 leaves all 64 bits of an S register. -/
theorem test_bfi_empty :
    sget ((after (.bfi ⟨0, 0, 0, 0, .s 5, .v 0, .const 159, .const 131, none⟩) (stG .u fun x => { x with s := [(5, 0x1122334455667788)] })).group 0 0).s 5 =
      0x1122334455667788 := by decide +kernel
/-- R40, R149: DQMX of E4M3 1.0 under X = 0, which is 2^−127, gives zero with UF and NX under FPCTL.FTZ. -/
theorem test_dqmx_flush :
    let t := after (.dqmx ⟨0, 0, 0, 2, .v 32, .v 0, .v 8, .none, none⟩) ((st1 .u).onGroup 0 0 fun x => { x with v := [(31, 0x38)], fpctl := 4 })
    ((t.group 0 0).rd32 (.v 32) 31, (t.group 0 0).fpstat % 32) = (0, 3) := by decide +kernel
/-- R119: 0xFFFFFFFF is less than 0 signed, not unsigned. -/
theorem test_isetp_example :
    let p (ty : BitVec 3) : Bool := ((((after (.isetp ⟨0, ty, 0, 2, .none, .v 0, .none, .none, some 2⟩) (stG .u (vals [(0, 0xFFFFFFFF)]))).group 0 0).lane 3).pred.getLsbD 2)
    p 0 = true ∧ p 1 = false := by decide +kernel
/-- R410, R411, R415: SYSC 0x21 of U mode enters S mode at SVEC + 4 and saves the next instruction, U mode, its own address and the literal. -/
theorem test_sysc_entry :
    let t := after (.sysc ⟨0, 0, 0, 0, .none, .none, none, 0x21⟩) (vectored (st .u))
    let k := (t.group 0 0).lane 3
    k.mode = .s ∧ k.pc.toNat = 0x10004 ∧ k.traps = [⟨0x10010, 0, k.pred, 0, 0, 0x10004, 0x21, none⟩] := by decide +kernel

/-! ### Hypotheses that are met: waiting transfers, fills, hints, commits -/

/-- `st` with an invalidation of the placed line's page under way, so that a look-up there waits. -/
def stInval (s : State) : State := { s with invals := [⟨9, 0, 0, 0, [⟨0, placedLine, 0, 0⟩], []⟩] }

theorem test_hyp_FailingTransfersTrap_wait :
    (let s := stInval (st .u)
     let f : FB := ⟨false, .none, .none, 0, 0⟩
     CanIssue s (cx .u) [] (transferUses f) ∧ s.target (cx .u) (transferTarget f s (cx .u) 0) = .wait) ∧
    (let f : FK := ⟨0, 0, .v 1, .none, .none, 0⟩
     (stInval (st .u)).target (cx .u) (txTarget f (cx .u).pc) = .wait) :=
  ⟨⟨canIssue (by decide +kernel), by decide +kernel⟩, by decide +kernel⟩

theorem test_hyp_PausesAndEnds_exit :
    (let b := ((st1 .u).begun (cx1 .u) []).leaveHandler (cx1 .u)
     (cx1 .u).act.all (fun l => !b.hasUnfinished 0 0 l) = true ∧ b.mayRelease 0 0 3 ((b.grp (cx1 .u)).runs (cx1 .u).act) = true ∧
       (((b.advance (cx1 .u)).endLanes 0 0 (cx1 .u).act).submitAll 0 0).isSome = true) := by decide +kernel

theorem test_hyp_AccumulatorsAndFills_fill :
    spadAligned 0 32 = true ∧ spadAligned 0x5FFF8 8 = true ∧ spadAligned 12 12 = true ∧ spadAligned 4 16 = false ∧
      0x5FFF8 + 8 ≤ ((st .u).core 0).partSize 0 := by decide +kernel

theorem test_hyp_GlobalAccesses_hints :
    (let s := stDesc .s 0x20000
     let f := { fm16 (.v 0) with c := .const 128 }
     let uses := [dst32 f.d, src64 f.a, src32 f.b, src32 f.c]
     (∀ l ∈ (cx .s).act, s.lineWaits (cx .s) true (fmAddr f (s.grp (cx .s)) l) = false ∧ s.lineWaits (cx .s) false (fmAddr f (s.grp (cx .s)) l) = false) ∧
     CanIssue s (cx .s) [] uses ∧ (cx .s).mode ≠ .u ∧
       (((s.begun (cx .s) uses).advance (cx .s)).laneValues (fun t l => t.pinPages (cx .s) l (fmAddr f (s.grp (cx .s)) l) (hintPages f (s.grp (cx .s)) l))
         (cx .s).act).isSome = true ∧
       (((s.begun (cx .s) uses).advance (cx .s)).laneValues (fun t l => t.unpinPages (cx .s) l (fmAddr f (s.grp (cx .s)) l) (hintPages f (s.grp (cx .s)) l))
         (cx .s).act).isSome = true) := ⟨by decide +kernel, canIssue (by decide +kernel), by decide, by decide +kernel, by decide +kernel⟩

theorem test_hyp_TransactionInstructions_commit :
    (let s := stG .u (inTx { Tx.none with writes := [⟨0x30000, 0x30000, 5, 1⟩] })
     let b := s.begun (cx .u) []
     b.commitFault 0 0 31 .u = none ∧ b.commitWaits 0 0 .u [31] = false ∧ b.validateWaits 0 ((b.group 0 0).lane 31).tx = false) := by decide +kernel

theorem test_hyp_CopyEvents_untagged :
    (let r := { req0 with done := 32, ended := true, tag := none, kind := .fill 1 4 }
     let s := (stEng r (ev 0 7 0)).onGroup 0 0 fun x => x.onLane 31 fun k => { k with wait := .reply 7 }
     (s.die 0).engine.find? (fun r => r.id == s.turn.item && r.spent) = some r ∧ r.kind ≠ .adapter ∧
       ((s.group? 0 0).any fun x => x.uid == r.uid && decide ((x.lane 31).wait = .reply 7) && x.live.contains 31) = true) := by decide +kernel

/-! ### Hypotheses that are met: records of faults and sectors, permits -/

/-- A record that waits for the fault queue. -/
def fault0 : FaultRec := ⟨0x20000, 4, 1, 0, 2 ^ 31, 0, 31, 0, 3, 0, 0, 1, 0, 0, 0, 0, 2 ^ 31⟩

theorem test_hyp_FaultRecordsReachTheQueue :
    (let s := { (st .u).onDie 0 fun d => { d with fqbase := 0x80001, fqptr := 0xFFF00000000, faults := [fault0] } with turn := ev 0 0 0 }
     let d := s.die 0
     bit d.fqbase.toNat 0 = true ∧ (4095 + 8192 - 0) % 8192 ≠ 4096 ∧ bits d.fqptr.toNat 44 32 = 4095 ∧
       s.slotFull (0x80000 + 64 * 4095) 64 = false ∧ s.slotFull (0x80000 + 0x40000) 8 = false ∧
       s.isOnChip 0x80000 = false ∧ s.isMgmt 0x80000 = false ∧ s.isOnChip 0xFFFFF = false ∧ s.isMgmt 0xFFFFF = false) ∧
    (let s := (st .u).onDie 0 fun d => { d with fqbase := 0x80001, fqptr := 0x100000000000, faults := [fault0] }
     (bits (s.die 0).fqptr.toNat 44 32 + 8192 - bits (s.die 0).fqptr.toNat 12 0) % 8192 = 4096) := by decide +kernel

theorem test_hyp_SweepDropsOldMetadata :
    (let s := { (st .u).onDie 0 fun d => { d with peak := 2 ^ 38 + 7 } with turn := ev 0 0 0, rmeta := [(0x1000, ⟨7, 1, 0xFF, 0, 0, 0⟩)] }
     let far (v : Nat) : Bool := decide (2 ^ 38 ≤ ((s.die 0).peak + 2 ^ 40 - v) % 2 ^ 40) && stampLt v (s.die 0).peak
     s.homeDie (32 * 0x1000) = 0 ∧ far 7 = true ∧ far 8 = false) := by decide +kernel

/-- `stAcc` for a permit request on a permit held by another fibre, with or without a fibre waiting. -/
def stPermit (k : AccKind) (word : Nat) (q : Access → Bool := fun _ => false) : State :=
  let a := { acc0 with kind := k, mask := 0xFF }
  { (stAcc a).write 0x20000 8 word with accesses := [a] ++ if q a then [{ a with id := 6, lane := 30, kind := .pacq, queued := true, stage := .ready }] else [] }

theorem test_hyp_PermitsAreGrantedAndHandedOver :
    (∀ k ∈ [AccKind.pacq, .ptry, .prel], let s := stPermit k 0
     let a := { acc0 with kind := k, mask := 0xFF }
     s.access? s.turn.unit = some a ∧ a.queued = false ∧ a.away = false ∧ a.late = false ∧ a.irrev = false ∧ isHost a.pa = false ∧ s.isOnChip a.pa = false ∧
       s.isMgmt a.pa = false ∧ s.mayPerform a = true ∧ (s.core 0).ckptMode ≠ 1 ∧ a.size = 8 ∧ a.mask = 2 ^ 8 - 1 ∧ s.failing a = false ∧
       (s.permitAt a.pa).held = false) ∧
    (let mine := 2 ^ 63 + (st .u).fid 0 0 31
     ((stPermit .pacq mine).permitAt 0x20000).held = true ∧ ((stPermit .pacq mine).permitAt 0x20000).holder = (st .u).fid 0 0 31 ∧
       ((stPermit .prel mine).permitAt 0x20000).waiters = []) ∧
    (((stPermit .pacq (2 ^ 63 + 1)).permitAt 0x20000).held = true ∧ ((stPermit .pacq (2 ^ 63 + 1)).permitAt 0x20000).holder ≠ (st .u).fid 0 0 31 ∧
      ((stPermit .pacq 0).cluster ((stPermit .pacq 0).unitOf 0x20000)).waiters < 256) ∧
    (let s := { stPermit .prel (2 ^ 63 + 2 ^ 40 + (st .u).fid 0 0 31) (fun _ => true) with clusters :=
       [((st .u).unitOf 0x20000, { Cluster.reset with permits := [(0x20000, (st .u).fid 0 0 31, [.lane 6])] })] }
     (s.permitAt 0x20000).waiters = [.lane 6] ∧ (s.permitAt 0x20000).holder = (st .u).fid 0 0 31 ∧ (s.access? 6).isSome = true) := by decide +kernel

/-! ### Hypotheses that are met: the array, rows and dispatch -/

/-- An adapter operation of 16 by 8 on accumulator 0, and `st` with some operations queued. -/
def mop0 : MatOp :=
  { id := 7, gid := 0, owner := placedGroup.uid, slot := 0, adpt := some (16, 8), height := 8, acc := 0, fmta := 0, daReg := none,
    daDesc := (0x100, 512), db := none, chain := [], tag := some 7, mask := 3, stamp := none, ftz := false, bank := none, ride := none, slices := 0,
    stages := 0, work := [], flags := 0, running := true, streamed := false, buffer := some [], cut := false }
def stOps (ops : List MatOp) (t : EventArgs) : State := { (st .u).onCore 0 fun k => { k with queue := ops } with turn := t }

theorem test_hyp_MemoryAndCoreEvents_array :
    (let s := stOps [mop0] { ev 0 7 0 with flag := true }
     let k := s.core 0
     k.queue.find? (fun o => o.id == s.turn.item && o.running && !o.streamed) = some mop0 ∧ 8 * mop0.slices < mop0.height ∧ mop0.dims.2 ≤ 128 ∧
       k.sliceBad mop0 = false) ∧
    (let s := stOps [mop0] (ev 0 7 0)
     (s.core 0).queue.find? (fun o => o.id == s.turn.item && o.running && !o.streamed) = some mop0 ∧ s.turn.flag = false ∧ mop0.height ≤ 8 * mop0.slices + 64) ∧
    (let s := (stOps [mop0] (ev 0 7 0)).onCore 0 fun k => { k with badAcc := [accKey 0 0 0] }
     (s.core 0).sliceBad mop0 = true ∧ ((s.core 0).groups.find? 0).isSome = true) ∧
    (let wait := { mop0 with running := false }
     let other := { mop0 with id := 8, acc := 1, running := false }
     let k := (stOps [wait, other] (ev 0 0 0)).core 0
     (∀ o ∈ k.queue, o.running = true → o.streamed = true) ∧ k.weightReady wait = true ∧ k.opStopped wait = false ∧ k.heldSteps = [] ∧ k.adapterUncorr wait = false ∧
       k.weightReady { wait with adpt := none } = false ∧ other.sharesTile wait = false ∧ wait.sharesTile wait = true) ∧
    (let done := { mop0 with streamed := true, slices := 1, chain := [] }
     let s := stOps [done] { ev 0 7 0 with flag := true }
     let k := s.core 0
     k.queue.find? (fun o => o.id == s.turn.item && o.streamed && !k.opStopped o) = some done ∧ done.stages = done.chain.length ∧ (k.opGroup done).isSome = true ∧
       7 < (s.group 0 0).tags.length) ∧
    (let mid := { mop0 with streamed := true, slices := 1, chain := [0, 0] }
     let k := (stOps [mid] { ev 0 7 0 with flag := true }).core 0
     mid.chain[mid.stages]? = some 0 ∧ mid.stages + 1 < mid.chain.length ∧ k.stageBad mid 0 = false) := by decide +kernel

theorem test_hyp_MemoryAndCoreEvents_banks :
    (let b : Bank := { Bank.empty with st := 1, tag := some (0, 7), owner := some placedGroup.uid }
     let s := { (st .u).onCore 0 fun k => { k with banks := [b, Bank.empty] } with turn := ev 0 0 0 }
     let k := s.core 0
     (k.bank 0).st = 1 ∧ k.banks.length = 2 ∧ (k.bank 0).releasing = false ∧ (k.bank 0).ride = none ∧ ((k.groups.find? 0).any fun y =>
       decide ((k.bank 0).owner = some y.uid) && decide (7 < y.tags.length)) = true ∧ (k.bank 1).st ≠ 1) ∧
    (let r : RideBlock := ⟨0, 3, 4, 0, 7, [], [placedGroup.uid], []⟩
     let s := { (st .u).onCore 0 fun k => { k with landing := [r] } with turn := ev 0 0 0 }
     (s.core 0).landing = [r] ∧ [0, 1].find? (fun i => ((s.core 0).bank i).st == 0) = some 0) := by decide +kernel

theorem test_hyp_RowsAndTheirRecords_last :
    (let s := stTok .u 0 rec0
     let x := s.grp (cx1 .u)
     rec0.join ≤ 1 ∧ rec0.joinNext = none ∧ x.rd32 fRow.a 31 = 0 ∧ (s.isLocal 0 0 = true → (s.die 0).isBound 0 = true) ∧
       (s.die 0).clonesOf ((s.die 0).canon x.opid) = [] ∧ s.merges = [] ∧ s.packets = [] ∧ ((s.die 0).op? ((s.die 0).canon 0)).isSome = true) ∧
    (let far : Nat := 2 ^ 20 + 3
     (stTok .u 0 rec0).isLocal far 0 = false ∧ bits far 31 22 = 0 ∧ bits far 21 20 = 1) ∧
    (some 5 : Option Nat) ≠ none ∧ { rec0 with join := 2, joinNext := some 5 }.joinNext ≠ some 0 := by decide +kernel

theorem test_hyp_TokenEvents_packets :
    (let s := { st .u with turn := { ev 0 0 0 with flag := true } }
     s.turn.flag = true ∧ s.portUp s.turn.item = false ∧ ({ s with pslstat := 1, pkgcfg := s.pkgcfg ||| 1 } : State).portUp 0 = true) ∧
    (let p : Packet := ⟨3, 1, 9, 0, 0, rec0, [rec0.tag], false, none⟩
     let s := { stEv (ev 1 3 0) with packets := [p] }
     s.packets.find? (fun p => p.id == 3) = some p ∧ p.pkg = s.pkg ∧ p.accepted = false) ∧
    (let full := stCol { Col.empty with rows := List.replicate 512 row0, waiting := [row0] } (ev 0 1 0)
     ((full.die 0).cols.find? 0).isSome = true ∧ 512 < 512 + ([row0].filter (fun w => w.rid == 1)).length) ∧
    (let s := stEv (ev 0 0 0)
     bit (s.die 0).stallcfg.toNat 0 = false ∧ (s.die 0).busySince.find? 0 = none) ∧
    (∀ i, i < 32 → (st .u).slotFull (0x5000 + 128 * i) 128 = false) := by decide +kernel

/-! ### Hypotheses that are met: passes and boardings -/

theorem test_hyp_PassesOpen :
    (let e := { entry0 with pin := true }
     let s := stRidge .u Ridge.reset e (ev 0 0 0) |>.onGroup 0 0 fun x => { x with ride := some ⟨0, 3, 0, true, none, 0, 2⟩ }
     (s.die 0).ridge.paused = false ∧ s.pinToOpen 0 = some (0, opRide e, e)) ∧
    (let e : RotEntry := ⟨0, 0, 0, entry0, 0, 0⟩
     let s := stRidge .u { Ridge.reset with rotation := [e], stats := [⟨0, 3, 0, 0, 0, false, false⟩], turns := 1 } entry0 (ev 0 0 0)
     s.pinToOpen 0 = none ∧ (s.die 0).ridge.rotation[(s.die 0).ridge.cursor]? = some e ∧ (s.die 0).ridge.paused = false ∧ (s.die 0).ridge.passes = [] ∧
       e.entry.dem = false) ∧
    (let s := stRidge .u Ridge.reset entry0 (ev 0 0 0)
     s.pinToOpen 0 = none ∧ (s.die 0).ridge.rotation.length ≤ (s.die 0).ridge.cursor ∧ (s.die 0).ridge.first = none ∧
       (s.die 0).rotationNow = [⟨0, 0, 0, entry0, 0, 0⟩]) ∧
    (let s := { (st .u) with turn := ev 0 0 0 }
     s.pinToOpen 0 = none ∧ (s.die 0).ridge.first = none ∧ (s.die 0).rotationNow = []) ∧
    (let s := stRidge .u { Ridge.reset with rotation := [⟨0, 0, 0, entry0, 0, 0⟩], paused := true } entry0 (ev 0 0 0)
     s.pinToOpen 0 = none ∧ (s.die 0).ridge.paused = true ∧ (s.die 0).ridge.cursor < (s.die 0).ridge.rotation.length) := by decide +kernel

theorem test_hyp_BoardingsTakeEffect :
    (let b : Boarding := ⟨false, 0, 3, 8, .v 8, 1⟩
     let s := (stRidge .u Ridge.reset entry0 (ev 0 0 0)).onGroup 0 0 fun x => { x with boardings := [b] }
     let x := s.group 0 0
     (s.group? 0 0).isSome = true ∧ x.boardings = [b] ∧ b.due ≤ s.clk ∧ (s.core 0).saves x.slot = false ∧ x.ride = none ∧ 8 < x.winsize ∧
       (s.die 0).passEntry 0 3 = some entry0 ∧ (s.die 0).passEntry 0 4 = none) ∧
    (let b : Boarding := ⟨true, 0, 3, 8, .v 8, 1⟩
     let s := (stRidge .u Ridge.reset entry0 (ev 0 0 0)).onGroup 0 0 fun x => { x with boardings := [b], ride := some ⟨0, 3, 0, false, none, 0, 2⟩ }
     (s.group 0 0).boardings = [b] ∧ b.leave = true ∧ (s.group 0 0).ride.isSome = true) := by decide +kernel

theorem test_hyp_RidgelineSteps_budget :
    (let s := stRidge .u { Ridge.reset with passes := [pass0] } entry0 (ev 0 4 0)
     let r := (s.die 0).ridge
     pass0 ∈ r.passes ∧ r.paused = false ∧ pass0.next < pass0.entry.places ∧ pass0.staged.length < 2 ∧ r.used + blockSize pass0.entry.fmt ≤ s.ridgeBudget 0) := by
  decide +kernel

/-! ### Hypotheses that are met: the KV block engine -/

/-- Whether work of the engine succeeds with an answer and a state of some kind. -/
def yields {α : Type} (m : Eng α) (e : EngSt) (p : α → EngSt → Bool) : Bool := match m e with | .ok (a, t) => p a t | .error _ => false
/-- What the engine begins with in a state. -/
def engOf (s : State) : EngSt := ⟨s, 1, 0, 0⟩
/-- The space of `stKv` with a number of blocks, its free count, some fork words, and the engine over it. -/
def kvSpace : Space := spaceOf 0 (2 ^ 51) ((stKv 0 (ev 0 7 0)).kvAgent (kv0 .map)) (space0 + 3 * 256 ^ 0x48)
def stKvFree (entry free : Nat) (forks : List (Nat × Nat)) : EngSt :=
  engOf (forks.foldl (fun s f => s.write (2 ^ 51 + 0x300000 + 16 * f.1) 16 f.2) ((stKv entry (ev 0 7 0)).write (2 ^ 51 + 0x64) 4 free))
/-- The word of an entry of sequence 0, logical block 0, and of records: LIVE with LEN 64; FORKED from the anchor 0x10000 at 64. -/
def entryWord (ref : Nat) : Nat := KvEntry.word ⟨0, 0, ref, false, false, true⟩
def liveFork : Nat := Fork.word ⟨0, 64, false, true, 0, 0, 0⟩
def deepFork : Nat := Fork.word ⟨0, 64, true, true, 15, 64, 0x10000⟩

theorem test_hyp_KvEngineSteps_clk : (kv0 .map).fault = none ∧ (kv0 .map).since < ({ stKv 0 (ev 0 7 0) with clk := 1 } : State).clk := by decide +kernel

theorem test_hyp_KvEngineSteps_table :
    yields (kvSpace.probe 0 0) (stKvFree (entryWord 1) 3 []) (fun a _ => a == some 0) = true ∧
    yields (kvSpace.hget 0x64) (stKvFree 0 0 []) (fun n _ => n == 0) = true ∧
    yields (kvSpace.hget 0x64) (stKvFree 0 3 []) (fun n t => n == 3 && yields (firstFree kvSpace.g kvSpace.fmap ((List.range 8).map fun i => i % 4)) t fun j u =>
      j == some 0 && yields (eput kvSpace.g (kvSpace.table) 8 (entryWord 1)) u fun _ v => yields (putMapBit kvSpace.g kvSpace.fmap 0 true) v fun _ w =>
        yields (kvSpace.hget 0x64) w fun k _ => k == 3) = true ∧
    yields (firstFree kvSpace.g kvSpace.fmap [0, 1, 2, 3]) (engOf ((stKvFree 0 3 []).s.write (2 ^ 51 + 0x220000) 8 15)) (fun j _ => j == none) = true ∧
    yields (kvSpace.entry 0) (stKvFree (entryWord 1) 3 []) (fun x _ => !x.copy && !x.ovf) = true := by decide +kernel

theorem test_hyp_KvEngineSteps_maps :
    (∀ w ∈ (((stKvFree 0 3 []).s.die kvSpace.g.die)).cows, w.space = 0 → w.req.word % 2 ^ 20 ≠ 0) ∧
    (∀ p ∈ ((stKvFree 0 3 []).s.die kvSpace.g.die).pubs, p.space = 0 → p.seq ≠ 0) ∧
    yields (kvSpace.resolve 0 0) (stKvFree 0 3 []) (fun a t => a == none && yields (kvSpace.allocate 0 0) t fun b u => b == some 0 &&
      yields (kvSpace.fork 0) u fun _ _ => true) = true ∧
    yields (kvSpace.resolve 0 0) (stKvFree 0 0 []) (fun a t => a == none && yields (kvSpace.allocate 0 0) t fun b _ => b == none) = true ∧
    yields (kvSpace.resolve 0 0) (stKvFree (entryWord 1) 3 []) (fun a t => a == some (0, false) && yields (kvSpace.entry 0) t fun x _ => x.ref == 1 && !x.copy) = true ∧
    yields (kvSpace.resolve 0 0) (stKvFree (entryWord 2) 0 []) (fun a t => a == some (0, false) && yields (kvSpace.entry 0) t fun x u => x.ref == 2 &&
      decide ((u.s.die kvSpace.g.die).cows.length < 64) && yields (kvSpace.allocate 0 0) u fun k _ => k == none) = true ∧
    yields (kvSpace.resolve 0 0) (engOf ((stKvFree (entryWord 2) 3 []).s.write (2 ^ 51 + 0x220000) 8 1)) (fun _ t => yields (kvSpace.entry 0) t fun _ u => yields (kvSpace.allocate 0 0) u fun k v => k == some 1 &&
      yields (ereads kvSpace.g 0x100000 1024) v fun _ w => yields (ewrites kvSpace.g 0x100400 1024) w fun _ y => yields (kvSpace.entry 0) y fun _ a =>
        yields (kvSpace.touch 0 0) a fun _ b => yields (ewhere kvSpace.g kvSpace.table 8) b fun _ _ => true) = true ∧
    yields (kvSpace.probe 1 0) (stKvFree (entryWord 1) 3 [(1, deepFork)]) (fun a t => a == none && yields (kvSpace.fork 1) t fun r u =>
      r.forked && decide (64 * 0 < r.fpos) && yields (kvSpace.resolveFrom 0 16 r.parent true) u fun _ _ => true) = true := by decide +kernel

theorem test_hyp_KvEngineSteps_forks :
    yields (kvSpace.fork 1) (stKvFree 0 3 [(1, liveFork)]) (fun r _ => r.live) = true ∧
    yields (kvSpace.fork 1) (stKvFree 0 3 [(0, liveFork)]) (fun r t => !r.live && yields (kvSpace.fork 0) t fun p _ => p.len == 64 && decide (63 < p.len)) = true ∧
    yields (kvSpace.fork 0) (stKvFree 0 3 []) (fun p _ => p.len == 0) = true ∧
    yields ((List.range 1).mapM fun l => kvSpace.probe 0 l) (stKvFree (entryWord 1) 3 [(0, deepFork)]) (fun ps _ => ps == [some 0]) = true ∧
    yields (kvSpace.fork 0) (stKvFree 0 3 [(0, deepFork)]) (fun p _ => p.depth == 15) = true ∧
    yields (kvSpace.resolved 0 1) (stKvFree (entryWord 255) 3 [(0, liveFork)]) (fun bs t => bs == [(0, 0)] &&
      yields (bs.mapM fun b => kvSpace.entry b.2) t fun refs _ => refs.any fun r => r.ref == 255) = true ∧
    yields (kvSpace.resolved 0 1) (stKvFree (entryWord 1) 3 [(0, liveFork)]) (fun bs t =>
      yields (bs.mapM fun b => kvSpace.entry b.2) t fun refs u => (refs.all fun r => r.ref != 255) && yields (kvSpace.share 0) u fun _ v =>
        yields (kvSpace.rekey 0 0x10000 0) v fun _ w => yields (eget kvSpace.g (kvSpace.headAt 0 0) (16 * 2 ^ kvSpace.hbits)) w fun _ x =>
          yields (kvSpace.anchorFrom [0x10000]) x fun a _ => a == some 0x10000) = true ∧
    yields (kvSpace.anchorFrom [1]) (stKvFree 0 3 [(1, liveFork)]) (fun a _ => a == none) = true := by decide +kernel

theorem test_hyp_KvEngineSteps_frees :
    yields (kvSpace.fork 0) (stKvFree (entryWord 1) 3 [(0, liveFork)]) (fun r t => yields (kvSpace.resolved 0 ((r.len + 63) / 64)) t fun bs u => bs == [(0, 0)] &&
      yields (kvSpace.entry 0) u fun x v => x.ref == 1 && yields (kvSpace.freeBlock 0) v fun _ w => yields (kvSpace.freeHeads 0) w fun _ y =>
        yields (kvSpace.putFork 0 Fork.zero) y fun _ z => yields (kvSpace.release 17 r) z fun _ _ => true) = true := by decide +kernel

theorem test_hyp_KvEngineSteps_stores :
    (let e := stKvFree (entryWord 1) 3 []
     e.s.projLoads 0 kvSpace.pset = false ∧ (e.s.projOf 0 { kvSpace with pid := 1 }).isNone = true ∧ (e.s.projOf 0 kvSpace).isSome = true ∧
       0 + 16 ≤ (e.s.core 0).partSize 0 ∧ (e.s.core 0).partSize 0 < 0x60000 + 16 ∧
       e.s.spadOwed 0 (e.s.group 0 0).uid 0 7 [((e.s.core 0).partBase 0, 16)] = false ∧
       yields (kvSpace.resolve 0 0) e (fun a t => a == some (0, false) && yields (kvSpace.entry 0) t fun x u => x.ref == 1 &&
         yields (eput kvSpace.g kvSpace.pool 16 0) u fun _ w => yields (kvSpace.head 0 0) w fun h y => !h.lost && yields (kvSpace.fileAt 0 0 h.count 0 0) y fun _ z =>
           yields (kvSpace.fork 0) z fun _ g => yields (ewhere kvSpace.g kvSpace.heads 4) g fun _ _ => true) = true) := by decide +kernel

theorem test_hyp_KvEngineSteps_gathers :
    (let e := stKvFree (entryWord 1) 3 []
     let us := probeOrder kvSpace.hbits 1 0
     yields (kvSpace.gather (fun x => x / 2 ^ 16) (some 0) us 17 0 1 []) e (fun r t => (match r with | .ok ps => ps.isEmpty | _ => false) &&
       yields ([].mapM fun p => kvSpace.item 0 p) t fun _ _ => true) = true ∧
     yields (kvSpace.head 0 0) (engOf (e.s.write (2 ^ 51 + 0x400000) 16 (2 ^ 63))) (fun h _ => h.lost) = true ∧
     yields (kvSpace.head 0 0) (engOf (e.s.write (2 ^ 51 + 0x400000) 16 65)) (fun h _ => !h.lost && decide (0 < (h.count + 63) / 64)) = true ∧
     yields (kvSpace.head 0 0) e (fun h t => h.count == 0 && yields (kvSpace.chainEntries 0 h.first 0) t fun _ _ => true) = true) := by decide +kernel

/-! ### Hypotheses that are met: saving and loading a slot -/

theorem areaOpen {s : State} {c : Ctx} {a n : Nat} (h : a + n ≤ 2 ^ 51)
    (hb : ((List.range n).all fun i => s.isHbm (a + i) && (s.owner (a + i)).isSome) = true) (hl : ∀ die ch, s.slotLines die ch = [])
    (ha : s.accesses = []) (hk : (s.core c.core).ckptMode = 0) : AreaOpen s c a n := by
  refine ⟨h, fun p h1 h2 => ?_, fun die ch => by simp [State.slotsHeld, hl], by simp [ha], hk⟩
  have := List.all_eq_true.mp hb (p - a) (List.mem_range.mpr (by omega))
  rw [Nat.add_sub_cancel' h1] at this
  simpa using this

/-- `stCtx` with the area that saving slot 1 leaves at 0x20000. -/
def stArea : State := (stCtx 0x20000 1).write 0x20000 80 (bytesNat ((stCtx 0x20000 1).ctxArea 0 1 0))

theorem test_hyp_ContextSaveAndLoad_saves :
    let s := (stCtx 0x20000 1).begun (cx1 .h) [dst32 fCtx.d, src64 fCtx.a, src64 fCtx.b]
    let t := s.beginSave (cx1 .h) 1
    (s.grp (cx1 .h)).rd64 fCtx.a 31 = 0x20000 ∧ (s.grp (cx1 .h)).rd64 fCtx.b 31 = 1 ∧ (cx1 .h).slot = 0 ∧ s.isHbm 0x20000 = true ∧
      (s.owner 0x20000).isSome = true ∧ (s.core 0).saving = none ∧ t.slotQuiet 0 1 = true ∧ (t.core 0).flushed 1 = [] ∧
      (t.ctxImage 0 1).bytes.length = 16 ∧ AreaOpen t (cx1 .h) 0x20000 80 :=
  ⟨by decide +kernel, by decide +kernel, by decide +kernel, by decide +kernel, by decide +kernel, by decide +kernel, by decide +kernel, by decide +kernel,
    by decide +kernel, areaOpen (by decide) (by decide +kernel) (fun _ _ => rfl) rfl (by decide +kernel)⟩

theorem test_hyp_ContextSaveAndLoad_loads :
    let s := stArea.begun (cx1 .h) [dst32 fCtx.d, src64 fCtx.a, src64 fCtx.b]
    let header := s.read 0x20000 64
    let body := (List.range 16).map fun j => s.read 0x20040 16 / 256 ^ j % 256
    AreaOpen s (cx1 .h) 0x20000 80 ∧ (s.core 0).inSlot 1 = 0 ∧ s.poison = [] ∧ bits header 95 64 = 80 ∧ bits header 31 0 = 0x56534331 ∧
      bits header 47 32 = 1 ∧ bits header 55 48 = 1 ∧ bits header 63 56 = 0 ∧ bits header 159 144 = 0 ∧ bits header 511 256 = 0 ∧
      bits header 111 96 ≤ (s.core 0).partSize 1 / 4096 ∧ bits header 119 112 &&& (s.core 0).accMask 1 = bits header 119 112 ∧
      xorWords 4 body = bits header 191 160 ∧ ((CtxImage.ofBytes 0 body).any fun i => i.groups.isEmpty && i.ops.isEmpty) = true ∧
      (s.core 0).queue = [] ∧ (s.core 0).groups.length ≤ 24 :=
  ⟨areaOpen (by decide) (by decide +kernel) (fun _ _ => rfl) rfl (by decide +kernel), by decide +kernel, by decide +kernel, by decide +kernel, by decide +kernel, by decide +kernel,
    by decide +kernel, by decide +kernel, by decide +kernel, by decide +kernel, by decide +kernel, by decide +kernel, by decide +kernel, by decide +kernel, by decide +kernel,
    by decide +kernel⟩

/-! ### Hypotheses that are met: binding -/

/-- A descriptor (R211) of one role, core 0, and a state whose host memory holds it at 0x40. -/
def descriptor (home role : Nat) : Nat :=
  [(0x14, 32), (0x16, 1), (0x19, home), (0x20, 1), (0x22, 2), (0x24, 3), (0x26, 1), (0x28, 1), (0x2A, 1), (0x30, role)].foldl
    (fun v e => v + e.2 * 256 ^ e.1) ((List.range 15).foldl (fun v i => v + 0xFFFF * 256 ^ (0x32 + 2 * i)) 0)
def stBind (v : Nat) : State := (mapped false (st1 .s)).write (2 ^ 51 + 0x40) 0x100 v
/-- The code that the checks of OPBIND give for a descriptor, on a state. -/
def bindCode (s : State) (v : Nat) : Nat :=
  ((s.bindCheck 0 { s.agentFor 0 0 31 0 .s with hash := none, mode := .s } v [] (operatorOf v [] 0 0)).map fun r => r.1).getD 99

theorem test_hyp_BindingOperators_checks :
    (let s := st1 .s
     let v := descriptor 0 0
     (s.die 0).op? 5 = none ∧ 0x40 % 64 = 0 ∧ descriptorOk v = true ∧ s.isRemoved 0 = false ∧ s.setsFull s.pinned = false ∧ s.portalMissing 0 = false ∧
       fieldAt v 0x30 2 = 0) ∧
    (let s := st1 .s
     bindCode s (descriptor 0 0) = 0 ∧ bindCode s (descriptor 0xA0 0) = 2 ∧ bindCode s (descriptor 0 0xFFFF) = 3 ∧ bindCode s (descriptor 0 700) = 3 ∧
       bindCode { s with removed := 1 } (descriptor 0 0) = 2 ∧ bindCode { s with removed := 1 } (descriptor 0 0xFFFF) = 3 ∧
       bindCode (s.onDie 0 fun d => { d with ops := [(0, { op0 with stage := 1 })] }) (descriptor 0 0) = 4 ∧
       bindCode (s.onDie 0 fun d => { d with ops := [(0, op0)] }) (descriptor 0 0 + 64 * 256 ^ 0x1A) = 5 ∧
       bindCode (s.onDie 0 fun d => { d with ops := [(0, { op0 with sched := [⟨0x10000, 4096, 4096, 3, 7, false, true⟩] })] }) (descriptor 0 0) = 6 ∧
       bindCode s (descriptor 0 0 + 2 ^ 16 * 256 ^ 0x2C) = 7) ∧
    (stBind 0).opbind (cx1 .s) 31 0x44 5 = some (stBind 0, 2, 0, none) ∧
    (match ((stBind 0).onDie 0 fun d => { d with ltlb := [] }).bindRead ((stBind 0).agentFor 0 0 31 0 .s) (fun _ _ => false) 0 0x40 with
      | .error e => decide (e ≠ .busy) | .ok _ => false) = true := by decide +kernel

/-- OPBIND reads a descriptor whose roles are cores 0 to 15, and binds it. -/
theorem test_hyp_BindingOperators_binds :
    let v := (List.range 16).foldl (fun v i => v + i * 256 ^ (0x30 + 2 * i)) (descriptor 0 0 % 256 ^ 0x30)
    (({ stBind 0 with mem := putBytes [] (2 ^ 51 + 0x40) 0x100 v } : State).opbind (cx1 .s) 31 0x40 5).any (fun r => r.2.1 == 0) = true := by decide +kernel

/-! ### Hypotheses that are met: the package -/

/-- A host write of a BAR0 register to the package in power state 1. -/
theorem test_hyp_HostAndPackageEvents_host :
    (let s := stEv (evAddr 0x20000 8)
     s.woken.windowAt 0x20000 8 = some 0x20000 ∧ s.woken.power = 0 ∧ s.turn.flag = false ∧ s.turn.hostOp ≠ .cas ∧
       ((List.range 8).all fun i => s.woken.isHbm (0x20000 + i) && (s.woken.owner (0x20000 + i)).isSome) = true ∧ s.poison = [] ∧
       s.woken.poisoned 0x20000 8 = false ∧
       ((s.woken.agentGet (portAgent 0x20000 portalHash) (s.woken.clockAt 0x20000 8) 0x20000 8).toOption.any fun o => o.bad == 0) = true ∧
       (s.woken.agentPut (portAgent 0x20000 portalHash) (s.woken.clockAt 0x20000 8) 0x20000 8 s.turn.value).isOk = true) ∧
    hostTakes .cas 16 = true ∧ hostTakes .fetchAdd 16 = false ∧ (stEv (evAddr (2 ^ 36 - 4) 8)).woken.windowAt (2 ^ 36 - 4) 8 = none ∧
    (let s := { stEv (evAddr 0x10000 8) with pkgcfg := 0x0100000000000001, msix := [(6, 0xFEE00000), (7, 0x41), (9, 2 ^ 32 + 0x42)] }
     s.pkgcfg.getLsbD 0 = true ∧ (((s.msix.find? 7).map BitVec.toNat).getD (2 ^ 32)).testBit 32 = false ∧
       (((s.msix.find? 9).map BitVec.toNat).getD (2 ^ 32)).testBit 32 = true) := by decide +kernel

theorem test_hyp_HostAndPackageEvents_peers :
    (let s := { stPsl (evAddr 0x20000 8) with turn := { evAddr 0x20000 8 with unit := 5, peerOp := .pacq } }
     s.turn.peerOp = .pacq ∧ s.woken.peerMay 0x20000 8 = true ∧ s.woken.poisoned 0x20000 8 = false ∧ (s.woken.permitAt 0x20000).held = false) ∧
    (let e : LogSector := ⟨0x20000, 0x20000, 1, 2 ^ 32 - 1⟩
     let s := { stPsl (evAddr 0 0) with turn := { evAddr 0 0 with peerOp := .commit, reads := [e] } }
     (∀ e ∈ s.turn.reads ++ s.turn.writes, e.pa % 32 = 0 ∧ s.woken.peerMay e.pa 32 = true) ∧ s.woken.pread e.pa 32 ≠ e.bytes) ∧
    (let s := { State.reset with bootstat := 2, turn := { EventArgs.zero with boot := ⟨0, 2, 1, 3, 7⟩ }, journal := ⟨some 4, [4], 3, true⟩ }
     s.inRecovery = true ∧ s.journal.fresh = true ∧ ({ s with bootstat := 0 } : State).isReady = false ∧ ({ s with bootstat := 0 } : State).inRecovery = false) := by
  decide +kernel

theorem test_hyp_SelectionAndEvents_forced :
    (let s := { (stEv (ev 0 0 0)).onCore 0 fun k => { k with credits := [(0, 64)] } with cur := none }
     let t := s.grantFus 0 0
     ((t.candidate 0 0 fun x ls => (t.core 0).fuGranted.contains 0 || !t.nextIsFnu 0 x ls).any fun p => decide (p.2.1 = some 0)) = true ∧
       ((t.core 0).settleCredits t.clk).credits.find? 0 = some 64) := by decide +kernel

theorem test_hyp_PrivilegeFaults_modes :
    (st .s).ctx? = some (cx .s) ∧ (cx .s).mode = .s ∧ (cx .s).mode ≠ .h ∧ (cx .s).slot = 0 ∧ 33 % 4 ≠ (cx .s).slot ∧
    (((st .s).onCore 0 fun k => { k with hctl := 1 }).core 0).hctl.getLsbD 0 = true ∧
    ((st .u).replayUse ⟨0, 0, .v 0, .none, .none, 0⟩).illegal = false ∧
    Use.outside ((st .u).grp (cx .u)).winsize ((st .u).replayUse ⟨0, 0, .v 0, .none, .none, 0⟩) = false := by decide +kernel

theorem test_hyp_HaltingGroups_kill :
    (let s := st1 .s
     let clear := ((lanesOf (2 ^ 31)).flatMap fun l => s.stuck 0 0 l).foldl State.discard s
     clear.mayRelease 0 0 3 ((s.group 0 0).runs [31]) = true ∧ (s.kill 0 0 [31]).isSome = true) := by decide +kernel

theorem test_hyp_KvRequestsAreQueued_issue : (stServe .u 0 0).laneMayIssue (cx1 .u) false 0 31 = true := by decide +kernel

/-- A state that steps, whose memory has its canonical form and whose registers have no reserved bit set. -/
theorem test_hyp_ReservedBitsStayZero :
    let s : State := { State.reset with sched := [⟨3, .lattolWrite, { EventArgs.zero with value := 5 }⟩] }
    ReservedZero s ∧ Memory.wf s.mem = true ∧ (nextOf (step s)).isSome = true := by
  refine ⟨⟨⟨by rfl, by rfl, by rfl, by rfl, by rfl, by rfl⟩, fun n => ?_, fun n => ?_, fun n => ?_⟩, by decide +kernel, by decide +kernel⟩
  · show Within Core.reset.spmap spmapBits ∧ (∀ p, Core.reset.spmapNew = some p → Within p.1 spmapBits) ∧
      Within Core.reset.accown (ones 11 0) ∧ (∀ p, Core.reset.accownNew = some p → Within p.1 (ones 11 0)) ∧
      Within Core.reset.racectl (ones 63 32 + ones 7 0) ∧ Within Core.reset.txcfg (ones 3 0) ∧ Within Core.reset.hvec (ones 52 11) ∧
      Within Core.reset.hctl 1 ∧ Within Core.reset.ckptcfg (ones 51 8 + ones 3 1) ∧ Within Core.reset.ckptstop (ones 39 0)
    exact ⟨by rfl, nofun, by rfl, nofun, by rfl, by rfl, by rfl, by rfl, by rfl, by rfl⟩
  · show (∀ w ∈ Core.reset.slotcfg, Within w (ones 36 32 + ones 20 16 + ones 3 0)) ∧ (∀ w ∈ Core.reset.svec, Within w (ones 52 11)) ∧
      (∀ w ∈ Core.reset.tarea, Within w (ones 51 18 + 1)) ∧ (∀ w ∈ Core.reset.ptroot, Within w (ones 51 13 + ones 11 0)) ∧
      ∀ w ∈ Core.reset.vmroot, Within w (ones 51 0)
    simp only [Core.reset, List.mem_replicate, Within]
    exact ⟨by rintro w ⟨-, rfl⟩; rfl, by rintro w ⟨-, rfl⟩; rfl, by rintro w ⟨-, rfl⟩; rfl, by rintro w ⟨-, rfl⟩; rfl, by rintro w ⟨-, rfl⟩; rfl⟩
  · show Within Die.reset.stallcfg (ones 63 12 + 1) ∧ Within Die.reset.ridge.cfg (ones 63 48 + ones 37 32 + ones 14 8) ∧
      Within Die.reset.adpcfg (ones 52 12 + ones 1 0) ∧ Within Die.reset.fqbase (ones 51 19 + 1) ∧
      Within Die.reset.fqptr (ones 44 32 + ones 12 0) ∧ Within Die.reset.kvdir (ones 51 19 + 1) ∧ Within Die.reset.scancfg (ones 51 27 + 1)
    exact ⟨by rfl, by rfl, by rfl, by rfl, by rfl, by rfl, by rfl⟩

end Sys2Proof.Tests
end

section
/-!
PROOFS. Integer arithmetic, predicates, votes and mask reads (R96, R97, R99, R115, R117, R119, R120). An instruction computes its
values from a group whose issuing lanes have already moved on; what it reads there is what stood in the group before.
-/
namespace Sys2Proof.Machine

open Sys2Proof

/-! ### What a destination write changes -/

/-- A result written for one lane changes registers alone. -/
theorem Group.put_eq (x : Group) (d : Operand) (wide : Bool) (l v : Nat) :
    x.put d wide l v =
      { x with v := (x.put d wide l v).v, s := (x.put d wide l v).s, badV := (x.put d wide l v).badV } := by
  cases d with
  | v n =>
    cases wide
    · by_cases h : n.val < x.winsize <;> simp [Group.put, Group.put32, Group.setV, h]
    · by_cases h : n.val + 1 < x.winsize <;> simp [Group.put, Group.put64, Group.setV, h]
  | s n | ct n | resv n | const n | none => cases wide <;> rfl

/-- Results written for lanes one after the other change registers alone. -/
theorem Group.foldl_put_eq (d : Operand) (wide : Bool) (f : Nat → Nat) (ls : List Nat) (x : Group) :
    let y := ls.foldl (fun x l => x.put d wide l (f l)) x
    y = { x with v := y.v, s := y.s, badV := y.badV } := by
  induction ls generalizing x with
  | nil => rfl
  | cons l ls ih =>
    dsimp only at ih ⊢
    rw [List.foldl_cons, ih, Group.put_eq]

/-- A destination written changes registers alone, whatever the window (R62). -/
theorem Group.wr_eq (x : Group) (c : Ctx) (d : Operand) (wide : Bool) (f : Nat → Nat) :
    x.wr c d wide f =
      { x with v := (x.wr c d wide f).v, s := (x.wr c d wide f).s, badV := (x.wr c d wide f).badV } := by
  cases d with
  | v n => exact Group.foldl_put_eq (.v n) wide f c.act x
  | ct n => exact Group.foldl_put_eq (.ct n) wide f c.act x
  | resv n => exact Group.foldl_put_eq (.resv n) wide f c.act x
  | const n => exact Group.foldl_put_eq (.const n) wide f c.act x
  | none => rfl
  | s n =>
    by_cases h : c.act.isEmpty = true
    · simp [Group.wr, h]
    · simpa [Group.wr, h] using Group.put_eq x (.s n) wide c.low (f c.low)

@[simp] theorem Group.wr_lane (x : Group) (c : Ctx) (d : Operand) (wide : Bool) (f : Nat → Nat) (l : Nat) :
    (x.wr c d wide f).lane l = x.lane l := by
  rw [Group.wr_eq]; rfl

/-! ### What is read of a group on its way -/

@[simp] theorem Group.moved_v (x : Group) (c : Ctx) (us : List Use) : (x.moved c us).v = x.v := by rw [Group.moved_eq]

@[simp] theorem Group.moved_s (x : Group) (c : Ctx) (us : List Use) : (x.moved c us).s = x.s := by rw [Group.moved_eq]

@[simp] theorem Group.moved_mask (x : Group) (c : Ctx) (us : List Use) (k : Nat) : (x.moved c us).mask k = x.mask k := by
  rw [Group.moved_eq]; rfl

/-- Operands are read of registers alone. -/
@[simp] theorem Group.moved_rd (x : Group) (c : Ctx) (us : List Use) (o : Operand) (l : Nat) (wide : Bool) :
    (x.moved c us).rd o l wide = x.rd o l wide := by
  rw [Group.moved_eq]; rfl

@[simp] theorem Group.moved_rd32 (x : Group) (c : Ctx) (us : List Use) (o : Operand) (l : Nat) :
    (x.moved c us).rd32 o l = x.rd32 o l := Group.moved_rd x c us o l false

@[simp] theorem Group.moved_rdInt (x : Group) (c : Ctx) (us : List Use) (t : IntTy) (o : Operand) (l : Nat) :
    (x.moved c us).rdInt t o l = x.rdInt t o l := by
  rw [Group.moved_eq]; rfl

@[simp] theorem Group.moved_ballot (x : Group) (c : Ctx) (us : List Use) (a : Operand) :
    (x.moved c us).ballot c a = x.ballot c a := by
  simp [Group.ballot]

@[simp] theorem Group.moved_lane_live (x : Group) (c : Ctx) (us : List Use) (l : Nat) :
    ((x.moved c us).lane l).live = (x.lane l).live := by
  have h := congrArg Lane.live (x.moved_lane c us l)
  split at h <;> exact h

@[simp] theorem Group.moved_lane_pred (x : Group) (c : Ctx) (us : List Use) (l : Nat) :
    ((x.moved c us).lane l).pred = (x.lane l).pred := by
  have h := congrArg Lane.pred (x.moved_lane c us l)
  split at h <;> exact h

@[simp] theorem Group.moved_live (x : Group) (c : Ctx) (us : List Use) : (x.moved c us).live = x.live := by
  simp [Group.live]

/-! ### Instructions that write one destination -/

/-- An instruction whose effect is to write one destination completes wherever it can issue, if its value is one that the move to the
next instruction leaves as it was. -/
theorem writesReg_of_wr {i : Instr} {masks : List (Fin 16)} {uses : List Use} {d : Operand} {wide : Bool}
    {val : Group → Ctx → Nat → Nat}
    (he : ∀ s, exec i s = s.issueMasks masks uses fun c x => x.wr c d wide (val x c)) (hd : dstW wide d ∈ uses)
    (hval : ∀ x c l, val (x.moved c uses) c l = val x c l) : WritesReg i masks uses d wide val := by
  refine writesReg_of_group (F := fun c x => x.wr c d wide (val x c)) he hd (fun c x => ?_) fun c x l => by simp
  have h : val (x.moved c uses) c = val x c := funext fun l => hval x c l
  rw [h]
  exact Group.wr_eq ..

/-- An instruction that computes D by `intOp` writes what `intOp` gives of the operands read before it (R117). -/
theorem writesReg_of_intInstr {i : Instr} {f : F3} {nsrc : Nat} {sat : Bool} {op : IntTy → Int → Int → Int → Int}
    (he : ∀ s, exec i s = s.intInstr f nsrc sat op) :
    let t := intTy f.ty
    WritesReg i [] (dstW t.wide f.d :: ([f.a, f.b, f.c].take nsrc).map (srcW t.wide)) f.d t.wide fun x _ l =>
      intOp t sat (op t) (x.rdInt t f.a l) (x.rdInt t f.b l) (x.rdInt t f.c l) :=
  writesReg_of_wr he List.mem_cons_self fun x c l => by simp

/-- A vote writes one value of the set in every active lane (R96). -/
theorem writesReg_of_vote {i : Instr} {f : FK} {r : Ctx → Group → Nat} (he : ∀ s, exec i s = s.vote f r)
    (hr : ∀ x c us, r c (x.moved c us) = r c x) :
    WritesReg i [] [dst32 f.d, src32 f.a] f.d false fun x c _ => r c x :=
  writesReg_of_wr he List.mem_cons_self fun x c _ => hr x c _

/-- An instruction that uses D alone and writes it. -/
theorem writesReg_of_read {i : Instr} {masks : List (Fin 16)} {d : Operand} {val : Group → Ctx → Nat → Nat}
    (he : ∀ s, exec i s = s.issueMasks masks [dst32 d] fun c x => x.wr c d false (val x c))
    (hval : ∀ x c l, val (x.moved c [dst32 d]) c l = val x c l) : WritesReg i masks [dst32 d] d false val :=
  writesReg_of_wr he List.mem_cons_self hval

/-! ### Instructions that write predicates -/

@[simp] theorem State.grp_putGrp (s : State) (c : Ctx) (y : Group) : (s.putGrp c y).grp c = y := by
  simp [State.grp, State.group, State.putGrp]

/-- A group with the registers of one that differs from it only in what an issue counts is the group itself. -/
theorem Group.with_regs_of_uncounted {x y : Group} (h : x.uncounted = y.uncounted) :
    { y with v := x.v, s := x.s, badV := x.badV } = y := by
  have hv : x.v = y.v := congrArg (fun z => z.v) h
  have hs : x.s = y.s := congrArg (fun z => z.s) h
  have hb : x.badV = y.badV := congrArg (fun z => z.badV) h
  rw [hv, hs, hb]

/-- An instruction whose effect is on the active lanes alone, and leaves them live and waiting as they were, completes wherever it can
issue and writes no register. -/
theorem writesReg_of_onLanes {i : Instr} {uses : List Use} {g : Ctx → Group → Nat → Lane → Lane}
    (he : ∀ s, exec i s = s.issueGroup uses fun c x => x.onLanes c.act (g c x))
    (hg : ∀ c x l k, (g c x l k).live = k.live ∧ (g c x l k).wait = k.wait) :
    WritesReg i [] uses .none false (fun _ _ _ => 0) fun c x => x.onLanes c.act (g c x) := by
  have hk (c : Ctx) (x : Group) (l : Nat) :
      ((x.onLanes c.act (g c x)).lane l).live = (x.lane l).live ∧
        ((x.onLanes c.act (g c x)).lane l).wait = (x.lane l).wait := by
    rw [Group.lane_onLanes]
    split
    · exact hg c x l (x.lane l)
    · exact ⟨rfl, rfl⟩
  intro s c h
  obtain ⟨t, ht, hf⟩ := State.issueWith_group (f := fun c x => x.onLanes c.act (g c x)) (allowed := fun _ _ => true) h rfl (hk c)
  have hu := hf.group
  rw [State.grp_putGrp] at hu
  refine ⟨t, (he s).trans ht, ⟨?_, ?_⟩, ?_⟩
  · exact (congrArg (fun z => z.v) hu).trans (Group.moved_v ..)
  · exact (congrArg (fun z => z.s) hu).trans (Group.moved_s ..)
  · rw [Group.with_regs_of_uncounted hu]
    exact hf

/-- An instruction that writes PD in the active lanes, and no register (R74, R119). -/
theorem writesReg_of_wrPred {i : Instr} {uses : List Use} {pd : Option (Fin 15)} {p : Group → Nat → Bool}
    (he : ∀ s, exec i s = s.issueGroup uses fun c x => x.wrPred c pd (p x)) :
    WritesReg i [] uses .none false (fun _ _ _ => 0) fun c x => x.wrPred c pd (p x) :=
  writesReg_of_onLanes (g := fun _ x l k => k.setPred pd (p x l)) he fun _ _ _ _ => ⟨Lane.setPred_live .., Lane.setPred_wait ..⟩

/-! ### The parts and the obligation -/

/-- Each form of integer arithmetic is `intOp` with its own operation on one element (R115, R117). -/
theorem integerArithmeticResults : IntegerArithmeticResults := by
  intro f
  refine ⟨?iadd, ?isub, ?imul, ?imulh, ?imin, ?imax, ?iabs, ?imad⟩
  case iadd => exact writesReg_of_intInstr (nsrc := 2) (op := fun _ a b _ => a + b) fun _ => rfl
  case isub => exact writesReg_of_intInstr (nsrc := 2) (op := fun _ a b _ => a - b) fun _ => rfl
  case imul => exact writesReg_of_intInstr (nsrc := 2) (op := fun _ a b _ => a * b) fun _ => rfl
  case imulh => exact writesReg_of_intInstr (nsrc := 2) (op := fun t a b _ => a * b / (2 ^ t.w : Int)) fun _ => rfl
  case imin => exact writesReg_of_intInstr (nsrc := 2) (op := fun _ a b _ => min a b) fun _ => rfl
  case imax => exact writesReg_of_intInstr (nsrc := 2) (op := fun _ a b _ => max a b) fun _ => rfl
  case iabs => exact writesReg_of_intInstr (nsrc := 1) (op := fun _ a _ _ => (a.natAbs : Int)) fun _ => rfl
  case imad => exact writesReg_of_intInstr (nsrc := 3) (op := fun _ a b c => a * b + c) fun _ => rfl

/-- Comparisons and PSET change the predicates of active lanes; PMOV reads the predicate word, which the move to the next instruction
leaves as it was (R119, R120). -/
theorem predicateResults : PredicateResults := by
  refine ⟨fun f => ?isetp, fun f => ?pset, fun f => ?psetNz, fun f => ?pmov⟩
  case isetp => exact writesReg_of_wrPred fun _ => rfl
  case pset =>
    exact writesReg_of_onLanes
      (g := fun _ x l k => { k with pred := BitVec.ofNat 16 (x.rd32 f.a l) ||| 0x8000#16 }) (fun _ => rfl) fun _ _ _ _ => ⟨rfl, rfl⟩
  case psetNz => exact writesReg_of_wrPred fun _ => rfl
  case pmov => exact writesReg_of_read (fun _ => rfl) fun x c l => by rw [Group.moved_lane_pred]

/-- Votes and elections depend on the operands, the mask and the active lanes, mask reads on the mask or on which lanes live: none of
them is changed by the move to the next instruction (R96, R97, R99). -/
theorem voteAndMaskReads : VoteAndMaskReads := by
  intro f
  refine ⟨?ballot, ?all, ?any, ?eq, ?elect, ?electIn, ?mget, ?mgetArr, ?mgetLive⟩
  case ballot => exact writesReg_of_vote (r := fun c x => x.ballot c f.a) (fun _ => rfl) fun x c us => by rw [Group.moved_ballot]
  case all =>
    exact writesReg_of_vote (r := fun c x => (x.ballot c f.a == maskOf c.act).toNat) (fun _ => rfl) fun x c us => by
      rw [Group.moved_ballot]
  case any =>
    exact writesReg_of_vote (r := fun c x => (x.ballot c f.a != 0).toNat) (fun _ => rfl) fun x c us => by rw [Group.moved_ballot]
  case eq =>
    exact writesReg_of_vote (r := fun c x => (c.act.all fun l => x.rd32 f.a l == x.rd32 f.a c.low).toNat) (fun _ => rfl)
      fun x c us => by simp only [Group.moved_rd32]
  case elect => exact writesReg_of_read (fun _ => rfl) fun _ _ _ => rfl
  case electIn => exact writesReg_of_read (fun _ => rfl) fun x c l => by simp only [Group.moved_mask]
  case mget => exact writesReg_of_read (fun _ => rfl) fun x c _ => by rw [Group.moved_mask]
  case mgetArr => exact writesReg_of_read (fun _ => rfl) fun x c _ => by rw [Group.moved_mask]
  case mgetLive => exact writesReg_of_read (fun _ => rfl) fun x c _ => by rw [Group.moved_live]

/-- Settles O2: each instruction is one write of a destination, or of predicates, and its value is read of the group as it stood before
the issue. -/
theorem integerPredicateAndVoteResults : Obligations.IntegerPredicateAndVoteResults :=
  ⟨integerArithmeticResults, predicateResults, voteAndMaskReads⟩

end Sys2Proof.Machine
end

section
/-!
PROOFS. Addition and subtraction with carry (R118). The sum and its carry in are read of a group whose issuing lanes have already moved
on; PD is written after D, and D's write leaves every predicate as it was.
-/
namespace Sys2Proof.Machine

open Sys2Proof

/-! ### Instructions that write one destination and PD -/

@[simp] theorem Group.wrPred_lane_live (x : Group) (c : Ctx) (pd : Option (Fin 15)) (p : Nat → Bool) (l : Nat) :
    ((x.wrPred c pd p).lane l).live = (x.lane l).live := by
  rw [Group.wrPred, Group.lane_onLanes]
  split
  · exact Lane.setPred_live ..
  · rfl

@[simp] theorem Group.wrPred_lane_wait (x : Group) (c : Ctx) (pd : Option (Fin 15)) (p : Nat → Bool) (l : Nat) :
    ((x.wrPred c pd p).lane l).wait = (x.lane l).wait := by
  rw [Group.wrPred, Group.lane_onLanes]
  split
  · exact Lane.setPred_wait ..
  · rfl

/-- PD written after D: the group with PD written, and the registers that the write to D leaves. -/
theorem Group.wr_wrPred_eq (x : Group) (c : Ctx) (d : Operand) (wide : Bool) (f : Nat → Nat) (pd : Option (Fin 15))
    (p : Nat → Bool) :
    (x.wr c d wide f).wrPred c pd p =
      { x.wrPred c pd p with v := (x.wr c d wide f).v, s := (x.wr c d wide f).s, badV := (x.wr c d wide f).badV } := by
  rw [Group.wr_eq]; rfl

/-- An instruction whose effect is to write one destination and then PD completes wherever it can issue, if the value of D is one
that the move to the next instruction leaves as it was (R62, R74). -/
theorem writesReg_of_wr_wrPred {i : Instr} {uses : List Use} {d : Operand} {wide : Bool} {val : Group → Ctx → Nat → Nat}
    {pd : Option (Fin 15)} {p : Ctx → Group → Nat → Bool}
    (he : ∀ s, exec i s = s.issueGroup uses fun c x => (x.wr c d wide (val x c)).wrPred c pd (p c x))
    (hd : dstW wide d ∈ uses) (hval : ∀ x c l, val (x.moved c uses) c l = val x c l) :
    WritesReg i [] uses d wide val fun c x => x.wrPred c pd (p c x) := by
  refine writesReg_of_group (F := fun c x => (x.wr c d wide (val x c)).wrPred c pd (p c x)) he hd (fun c x => ?_)
    fun c x l => by simp
  have h : val (x.moved c uses) c = val x c := funext fun l => hval x c l
  rw [h]
  exact Group.wr_wrPred_eq ..

/-! ### The sum with its carry -/

/-- The exact sum or difference that a form of IADDC narrows into D, with the old PD as carry or borrow in where the form takes one
(R118). -/
def Group.carrySum (x : Group) (f : F3) (sub useIn : Bool) (l : Nat) : Int :=
  let wide := (intTy f.ty).wide
  let cin : Int := if useIn && (x.lane l).getPred f.pd then 1 else 0
  if sub then (x.rd f.a l wide : Int) - x.rd f.b l wide - cin else (x.rd f.a l wide : Int) + x.rd f.b l wide + cin

/-- The carry or borrow out of a sum of `w` bits (R118). -/
def carryOut (sub : Bool) (w : Nat) (r : Int) : Bool := if sub then decide (r < 0) else decide (2 ^ w ≤ r)

@[simp] theorem Group.moved_lane_getPred (x : Group) (c : Ctx) (us : List Use) (l : Nat) (pd : Option (Fin 15)) :
    ((x.moved c us).lane l).getPred pd = (x.lane l).getPred pd := by
  cases pd <;> simp [Lane.getPred]

@[simp] theorem Group.moved_carrySum (x : Group) (c : Ctx) (us : List Use) (f : F3) (sub useIn : Bool) (l : Nat) :
    (x.moved c us).carrySum f sub useIn l = x.carrySum f sub useIn l := by
  simp [Group.carrySum]

/-- IADDC writes D with the narrowed sum, then PD with its carry out (R118). -/
theorem State.addCarry_eq (s : State) (f : F3) (sub useIn : Bool) :
    let t := intTy f.ty
    s.addCarry f sub useIn = s.issueGroup [dstW t.wide f.d, srcW t.wide f.a, srcW t.wide f.b] fun c x =>
      (x.wr c f.d t.wide fun l => wrap t.w (x.carrySum f sub useIn l)).wrPred c f.pd fun l =>
        carryOut sub t.w (x.carrySum f sub useIn l) := rfl

/-- A form of IADDC completes wherever it can issue, with its sum and carry taken of the group before it (R118). -/
theorem writesReg_of_addCarry {i : Instr} {f : F3} {sub useIn : Bool} (he : ∀ s, exec i s = s.addCarry f sub useIn) :
    let t := intTy f.ty
    WritesReg i [] [dstW t.wide f.d, srcW t.wide f.a, srcW t.wide f.b] f.d t.wide
      (fun x _ l => wrap t.w (x.carrySum f sub useIn l)) fun c x =>
        x.wrPred c f.pd fun l => carryOut sub t.w (x.carrySum f sub useIn l) :=
  writesReg_of_wr_wrPred (p := fun _ x l => carryOut sub (intTy f.ty).w (x.carrySum f sub useIn l))
    (fun s => (he s).trans (s.addCarry_eq f sub useIn)) List.mem_cons_self fun x c l => by rw [Group.moved_carrySum]

/-! ### The obligation -/

/-- Settles O3: the four forms are one write of D and of PD, with or without subtraction and with or without the old PD coming in. -/
theorem carryResults : Obligations.CarryResults := by
  intro f
  refine ⟨?add, ?addc, ?sub, ?subb⟩
  case add => exact writesReg_of_addCarry (sub := false) (useIn := false) fun _ => rfl
  case addc => exact writesReg_of_addCarry (sub := false) (useIn := true) fun _ => rfl
  case sub => exact writesReg_of_addCarry (sub := true) (useIn := false) fun _ => rfl
  case subb => exact writesReg_of_addCarry (sub := true) (useIn := true) fun _ => rfl

end Sys2Proof.Machine
end
